-- ==== Sys2Proof/Word.lean ====
section
/-! DEFINITION. Words, the numbers of ports, slots and entries, and tables of a fixed number of places. -/

namespace Sys2Proof

/-- A word of a host port or of the pool memory: 32 bits, bit 0 the least significant (R164). -/
abbrev Word := BitVec 32

/-- A byte lane of the pool (R94). -/
abbrev Byte := BitVec 8

/-- A host port, P0 to P3. -/
abbrev Port := Fin 4

/-- A claim slot of one port, S0 to S3 (R24). -/
abbrev SlotNo := Fin 4

/-- An entry of the lease table, 0 to 63 (R4). -/
abbrev EntryId := Fin 64

/-- A table with one place for each of `n` indexes. -/
abbrev Table (n : Nat) (α : Type) := Vector α n

/-- What stands in a place of a table. -/
def Table.look {n : Nat} {α : Type} (t : Table n α) (i : Fin n) : α := t.get i

/-- The table with one place replaced. -/
def Table.put {n : Nat} {α : Type} (t : Table n α) (i : Fin n) (x : α) : Table n α := t.set i.val x i.isLt

end Sys2Proof
end

