-- ==== Sys2Proof/Syntax.lean ====
section
/-! DEFINITION. The commands of the controller: one constructor for each row of spec/opcode_table.json.

A command is one whole step of the part (95_what_each_step_holds.md). In every port transaction `p` is the port that
presents it and `len` what its Pn_LEN lines carry, the length less 1 (R159, R169), so a single word is `len = 0`. `w` is
the first word written; the further words of a control-window burst reach nothing (R161). `a` is a word address: of the
pool (port address 4 a) in the two pool rows, and from port address 1000000h (port address 1000000h + 4 a) in the two
window rows. Byte enables outside the pool window are ignored (R159) and have no operand. -/

namespace Sys2Proof

/-- What the pool memory's lines carry when it reports ready (R168). -/
inductive MemAnswer where
  /-- The memory answers from what the SRAM holds. -/
  | sram
  /-- The data and parity lines carry these values, whatever the SRAM was given before: a page beyond the fitted memory
  (R1), or bytes that were upset (R109). Only a read looks at them. -/
  | lines (data : Word) (parity : BitVec 4)
  deriving DecidableEq, Repr

/-- The commands, in the order of spec/opcode_table.json. -/
inductive Instr where
  | nreset
  | nresetRelease
  | portResetLineAssert (p : Port)
  | portResetLineRelease (p : Port)
  | prescaleUnderflow
  | leaseTick
  | termEnd (e : EntryId) (p : Port)
  | graceEnd (e : EntryId) (p : Port)
  | lapse (p : Port) (k : SlotNo)
  | orphanExpiry (e : EntryId)
  | poolWrite (p : Port) (a : BitVec 22) (be : BitVec 4) (ws : List Word)
  | poolRead (p : Port) (a : BitVec 22) (be : BitVec 4) (len : BitVec 4)
  | heldReadJudge (p : Port)
  | burstStart
  | poolWordReady (m : MemAnswer)
  | evaluation
  | slotDescB (p : Port) (len : BitVec 4) (k : SlotNo) (w : Word)
  | slotCancel (p : Port) (len : BitVec 4) (k : SlotNo) (w : Word)
  | slotCollect (p : Port) (len : BitVec 4) (k : SlotNo)
  | holdQueue (p : Port) (len : BitVec 4) (w : Word)
  | release (p : Port)
  | renew (p : Port)
  | viewIndex (p : Port) (len : BitVec 4) (w : Word)
  | supViewIndex (p : Port) (len : BitVec 4) (w : Word)
  | noticePending (p : Port) (len : BitVec 4) (w : Word)
  | noticeEnable (p : Port) (len : BitVec 4) (w : Word)
  | faultClear (p : Port) (len : BitVec 4) (w : Word)
  | tickEnable (p : Port) (len : BitVec 4) (w : Word)
  | registerWrite (p : Port) (len : BitVec 4) (a : BitVec 22) (w : Word)
  | openPort (p : Port) (len : BitVec 4)
  | closePort (p : Port) (len : BitVec 4)
  | recallLease (p : Port) (len : BitVec 4)
  | revokeLease (p : Port) (len : BitVec 4)
  | adoptLease (p : Port) (len : BitVec 4)
  | retireLease (p : Port) (len : BitVec 4)
  | setPool (p : Port) (len : BitVec 4)
  | partReset (p : Port) (len : BitVec 4)
  | unknownCommand (p : Port) (len : BitVec 4) (code : BitVec 4)
  | closeSecondStage (p : Port)
  | closeThirdStage (p : Port)
  | closeFourthStage (p : Port)
  | closeSixthStage (p : Port)
  | controlWindowRead (p : Port) (len : BitVec 4) (a : BitVec 22)
  deriving DecidableEq, Repr

end Sys2Proof
end

