-- ==== Sys2Proof/Decode.lean ====
section
/-! DEFINITION. Reading a command from the bits the opcode table gives its row. -/

namespace Sys2Proof

/-- No row of spec/opcode_table.json carries bits (every row's list of fields is empty), so no word spells a command. -/
def decodeTableWord (_nbits _w : Nat) : Option Instr := none

end Sys2Proof
end

