-- ==== Sys2Proof/Config.lean ====
section
/-! DEFINITION. The values the spec leaves open: constants without a body, about which nothing can be proved. -/

namespace Sys2Proof.Config

/-- The data an SRAM byte came up with, by pool byte address: what a byte that nothing has written holds (R108). -/
opaque sramByte : Nat → BitVec 8

/-- The parity bit an SRAM byte came up with, by pool byte address (R108). -/
opaque sramParity : Nat → Bool

/-- What became of the word under way when part reset cut a write short (R110), by the number of the draw: 0 the word was
left unwritten, 1 it was written, any other value it is torn lane by lane. -/
opaque cutWord : Nat → BitVec 2

/-- A lane of a torn word, by the number of the draw and the pool byte address: in bits 9:8, 0 the lane was left unwritten,
1 it was written, any other value its data is bits 7:0 and its parity bit does not agree with them (R110). -/
opaque tornLane : Nat → Nat → BitVec 10

end Sys2Proof.Config
end

