-- ==== Sys2Proof/Machine/State.lean ====
section
/-! DEFINITION. Everything the controller holds, as plain data, and the machine right after reset. -/

namespace Sys2Proof.Machine

/-! ## Leases (01_leases_and_the_lease_table.md) -/

/-- The two modes of a lease or claim (R3). -/
inductive Mode where
  | shared | exclusive
  deriving DecidableEq, Repr

/-- A base page and a page count (R2). -/
structure PageRange where
  base : BitVec 14
  count : BitVec 15
  deriving DecidableEq, Repr

/-- The name of a lease: an entry and a generation (R9). -/
structure Handle where
  entry : EntryId
  generation : BitVec 8
  deriving DecidableEq, Repr

/-- The states of a holding (Table 5). -/
inductive HoldingState where
  | awarded | held | overdue | recalled
  deriving DecidableEq, Repr

/-- One port's share in a lease (R10, Table 5). -/
structure Holding where
  port : Port
  state : HoldingState
  term : BitVec 16
  granted : BitVec 16
  grace : BitVec 8
  forced : Bool
  deriving DecidableEq, Repr

/-- The orphan record of an entry (R12). -/
structure OrphanRecord where
  former : Port
  counter : BitVec 16
  timed : Bool
  deriving DecidableEq, Repr

/-- The states of a lease entry (R5). -/
inductive EntryState where
  | free | live | draining | orphaned
  deriving DecidableEq, Repr

/-- A lease entry (R4, Table 3). `tickDue` is the model's own: a lease tick was handed to the entry (R116) and its event on
the entry has not been taken yet (notes/assumptions/4.md). -/
structure Entry where
  state : EntryState
  generation : BitVec 8
  mode : Mode
  range : PageRange
  holdings : List Holding
  inFlight : Nat
  contested : Bool
  orphan : Option OrphanRecord
  tickDue : Bool
  deriving DecidableEq, Repr

/-! ## Claims (02_claim_slots_and_the_wait_queue.md) -/

/-- What a host asks for (R24, Table 8). -/
structure Descriptor where
  range : PageRange
  mode : Mode
  noWait : Bool
  term : BitVec 16
  deriving DecidableEq, Repr

/-- How a grant was made (R51, R145). -/
inductive GrantKind where
  | new | joined | adopted
  deriving DecidableEq, Repr

/-- A grant in a slot (R24, Table 8). `tickDue` is the model's own, as in `Entry`. -/
structure Grant where
  handle : Handle
  kind : GrantKind
  term : BitVec 16
  clamped : Bool
  collect : BitVec 8
  tickDue : Bool
  deriving DecidableEq, Repr

/-- Why a no-wait claim was denied (R50). -/
inductive DenialCause where
  | conflict | tableFull
  deriving DecidableEq, Repr

/-- A claim slot in its state, with what is present in that state (R24, R25). -/
inductive Slot where
  | empty
  | waiting (claim : Descriptor)
  | granted (claim : Descriptor) (grant : Grant)
  | denied (claim : Descriptor) (cause : DenialCause)
  deriving DecidableEq, Repr

/-- The place of a claim: a slot of a port. -/
structure ClaimId where
  port : Port
  slot : SlotNo
  deriving DecidableEq, Repr

/-! ## The holding queue (05_holdings_over_their_term.md) -/

/-- The kinds of holding-queue item (R83). -/
inductive ItemKind where
  | release | renew
  deriving DecidableEq, Repr

/-- An item of a holding queue (R83). -/
structure HoldItem where
  kind : ItemKind
  handle : Handle
  term : BitVec 16
  deriving DecidableEq, Repr

/-! ## Pool access (06_guarded_access_to_the_pool.md) -/

/-- A buffered write burst, tied to the entry it was accepted under (R100). `addr` is the pool word address. -/
structure WriteBurst where
  addr : BitVec 22
  enables : BitVec 4
  words : List Word
  entry : EntryId
  deriving DecidableEq, Repr

/-- How far a port's outstanding read has come (R96, R99). -/
inductive ReadStage where
  /-- Held at the first judgment of R96. -/
  | held
  /-- Accepted under this entry, and not finished at the pool memory. -/
  | accepted (entry : EntryId)
  deriving DecidableEq, Repr

/-- A port's outstanding read (R95, R103). `len` is the length less 1. -/
structure PortRead where
  addr : BitVec 22
  enables : BitVec 4
  len : BitVec 4
  stage : ReadStage
  deriving DecidableEq, Repr

/-- What a burst at the memory port does. -/
inductive BurstKind where
  | write (words : List Word)
  | read (len : BitVec 4)
  deriving DecidableEq, Repr

/-- The burst being carried out at the pool memory port (R105, R106, R168): `done` words have ended, `got` are the words
read so far, oldest first, with the disabled lanes zero, and `parityError` says that an enabled byte failed (R109). -/
structure ActiveBurst where
  port : Port
  kind : BurstKind
  addr : BitVec 22
  enables : BitVec 4
  entry : EntryId
  done : Nat
  got : List Word
  parityError : Bool
  deriving DecidableEq, Repr

/-! ## Ports (08_opening_and_closing_ports.md, 10_notices_attention_and_the_fault_record.md) -/

/-- Why a port is closing (R120). -/
inductive CloseCause where
  | command | line
  deriving DecidableEq, Repr

/-- The stage of the close procedure under way (R122, R127). -/
inductive CloseStage where
  | first | second | third | fourth | fifth
  deriving DecidableEq, Repr

/-- The port states; cause and stage have meaning while CLOSING alone (R120, R122). -/
inductive PortState where
  | closed | opened | closing (cause : CloseCause) (stage : CloseStage)
  deriving DecidableEq, Repr

/-- The refusal codes of Table 38. -/
inductive RefusalCode where
  | portClosed | notHeld | mode | outOfPool | align | slotBusy | noClaim | badDescriptor | selfOverlap | supervisorOnly
  | commandBusy | poolParity | unmapped | staleHandle | renewDenied
  deriving DecidableEq, Repr

/-- The kind of a fault with its place (R157, Table 37). -/
inductive FaultPlace where
  | read (addr : BitVec 25)
  | write (addr : BitVec 25)
  | control (addr : BitVec 25)
  | queued (handle : Handle)
  deriving DecidableEq, Repr

/-- A valid fault record; an empty one is `none` (R157). -/
structure FaultRecord where
  code : RefusalCode
  place : FaultPlace
  more : Bool
  deriving DecidableEq, Repr

/-- What a port's answer lines carry (R159, R169). -/
inductive Answer where
  | none | done (words : List Word) | retry | refuse (code : RefusalCode)
  deriving DecidableEq, Repr

/-- The notice kinds, in the order of their bits (R167, Table 36). -/
inductive Notice where
  | grant | lapse | recall | revoke | fault | command | orphan | orphanEnd
  deriving DecidableEq, Repr

/-- The items of an entry that every view shows (Table 7). -/
structure EntryItems where
  index : EntryId
  state : EntryState
  generation : BitVec 8
  mode : Mode
  range : PageRange
  nHoldings : Nat
  inFlight : Nat
  contested : Bool
  deriving DecidableEq, Repr

/-- A port's lease view snapshot (R20, Table 7). -/
structure LeaseView where
  items : EntryItems
  own : Option Holding
  deriving DecidableEq, Repr

/-- P0's supervisor snapshot (R150). -/
structure SupView where
  items : EntryItems
  holdings : List Holding
  orphan : Option OrphanRecord
  deriving DecidableEq, Repr

/-- Everything one port interface holds, with the claim slots, holding queue, write buffer, read and notice flags the other
blocks keep for the port. `staging` is word A of each slot (R26). -/
structure PortRec where
  state : PortState
  lineHeld : Bool
  slots : Table 4 Slot
  staging : Table 4 PageRange
  holdQueue : List HoldItem
  writeBuffer : List WriteBurst
  read : Option PortRead
  view : Option LeaseView
  fault : Option FaultRecord
  noticesPending : BitVec 8
  noticesEnabled : BitVec 8
  answer : Answer
  deriving DecidableEq, Repr

/-- The configuration values kept for one port (R118). -/
structure PortTerms where
  default : BitVec 16
  cap : BitVec 16
  deriving DecidableEq, Repr

/-! ## The command engine (09_supervision.md) -/

/-- The current command of a BUSY engine: its code and the operands copied from CMD_ARG (R137). -/
structure Command where
  code : BitVec 4
  arg : Word
  deriving DecidableEq, Repr

/-- The results of a command (Table 48). -/
inductive CmdResult where
  | ok | badPort | portState | staleHandle | leaseState | noSlot | overlap | badValue | inUse
  deriving DecidableEq, Repr

/-- The result word once a command has completed (R139). -/
structure ResultWord where
  code : BitVec 4
  result : CmdResult
  deriving DecidableEq, Repr

/-! ## The machine -/

/-- A sparse memory: (address, value) pairs with addresses strictly rising. An address that is not listed is one that nothing
has written. -/
abbrev Cells (α : Type) := List (Nat × α)

/-- The controller, the pool memory behind it, and the commands that are waiting. -/
structure State where
  nreset : Bool
  entries : Table 64 Entry
  ports : Table 4 PortRec
  waitQueue : List ClaimId
  evalCalled : Bool
  prescaleDiv : BitVec 8
  prescaleCounter : BitVec 8
  tickDiv : BitVec 16
  tickCounter : BitVec 16
  tickEnable : Bool
  tickDue : Bool
  leaseTime : BitVec 16
  poolPages : BitVec 15
  terms : Table 4 PortTerms
  collectTicks : BitVec 8
  graceTicks : BitVec 8
  orphanTicks : BitVec 16
  engine : Option Command
  cmdArg : Word
  result : Option ResultWord
  supView : Option SupView
  memPort : Option ActiveBurst
  pointer : Port
  poolData : List Host.Cell
  poolParity : Cells Bool
  freeDraws : Nat
  pending : List Instr
  deriving DecidableEq, Repr

/-- Why a step stops with a fault. -/
inductive Fault where
  /-- Raised by no command: the spec names no event that stops the controller. The constructor stands so that the type is
  not empty; `Obligations.EveryCommandAnswersNext` says that no command answers it. Safe. -/
  | stopped
  deriving DecidableEq, Repr

/-- Why a step has no meaning. -/
inductive Refusal where
  /-- Raised by `exec`'s arms alone, for a command that has no meaning yet. Safe: nothing can be proved of its effect. -/
  | notModelled (mnemonic : String)
  /-- Raised by a pool write whose list of words no host can present: none, or more than 16 (R94). Safe: such a term is no
  command of the part. -/
  | malformed
  deriving DecidableEq, Repr

/-- A FREE entry that has never been allocated (R5, R23). -/
def Entry.unused : Entry :=
  { state := .free, generation := 0, mode := .shared, range := ⟨0, 0⟩, holdings := [], inFlight := 0, contested := false,
    orphan := none, tickDue := false }

/-- A port as part reset leaves it, but for its state and its line (R135, Table 31). -/
def PortRec.cleared : PortRec :=
  { state := .closed, lineHeld := false, slots := Vector.replicate 4 .empty, staging := Vector.replicate 4 ⟨0, 0⟩,
    holdQueue := [], writeBuffer := [], read := none, view := none, fault := none, noticesPending := 0,
    noticesEnabled := 0, answer := .none }

/-- The machine right after part reset, with NRESET and every port reset line released: P0 is OPEN, P1 to P3 are CLOSED
(R23, R39, R58, R93, R110, R115, R118, R135, R137). Which levels the lines have is a DESIGN CHOICE (unsafe,
notes/assumptions/14.md), as is that nothing has been written into the pool (unsafe, notes/assumptions/15.md). -/
def State.reset : State :=
  { nreset := false
    entries := Vector.replicate 64 Entry.unused
    ports := Table.put (Vector.replicate 4 PortRec.cleared) 0 { PortRec.cleared with state := .opened }
    waitQueue := []
    evalCalled := false
    prescaleDiv := 249
    prescaleCounter := 249
    tickDiv := 159
    tickCounter := 159
    tickEnable := true
    tickDue := false
    leaseTime := 0
    poolPages := 16384
    terms := Vector.replicate 4 ⟨256, 65535⟩
    collectTicks := 16
    graceTicks := 8
    orphanTicks := 0
    engine := none
    cmdArg := 0
    result := none
    supView := none
    memPort := none
    pointer := 0
    poolData := []
    poolParity := []
    freeDraws := 0
    pending := [] }

end Sys2Proof.Machine
end

