-- ==== Sys2Proof/Machine/Operands.lean ====
section
/-! DEFINITION. The words of the windows: where each lies, which accesses it permits, and how its fields are placed
(11_port_transactions_and_word_formats.md). -/

namespace Sys2Proof.Machine

/-! ## Fields (R164) -/

/-- A value placed in a word with its least significant bit at bit `lo`. -/
def place {n : Nat} (x : BitVec n) (lo : Nat) : Word := x.setWidth 32 <<< lo

/-- A flag placed at one bit of a word. -/
def placeBit (b : Bool) (lo : Nat) : Word := place (BitVec.ofBool b) lo

/-- The field of `n` bits of a word whose least significant bit is bit `lo`. -/
def field (w : Word) (lo n : Nat) : BitVec n := w.extractLsb' lo n

/-- A port number from a 2-bit field (Table 49). -/
def portOf (b : BitVec 2) : Port := ⟨b.toNat, b.isLt⟩

/-- An entry index from a 6-bit field. -/
def entryOf (b : BitVec 6) : EntryId := ⟨b.toNat, b.isLt⟩

/-- A port number as its 2-bit field. -/
def portBits (p : Port) : BitVec 2 := BitVec.ofNat 2 p.val

/-- An entry index as its 6-bit field. -/
def entryBits (e : EntryId) : BitVec 6 := BitVec.ofNat 6 e.val

/-! ## Encodings of enumerated fields (Tables 38, 48 and 49) -/

def Mode.code : Mode → BitVec 1
  | .shared => 0
  | .exclusive => 1

def Mode.ofCode (b : BitVec 1) : Mode := if b = 1 then .exclusive else .shared

def Slot.code : Slot → BitVec 2
  | .empty => 0
  | .waiting _ => 1
  | .granted _ _ => 2
  | .denied _ _ => 3

def GrantKind.code : GrantKind → BitVec 2
  | .new => 1
  | .joined => 2
  | .adopted => 3

def DenialCause.code : DenialCause → BitVec 2
  | .conflict => 1
  | .tableFull => 2

def EntryState.code : EntryState → BitVec 2
  | .free => 0
  | .live => 1
  | .draining => 2
  | .orphaned => 3

def HoldingState.code : HoldingState → BitVec 2
  | .awarded => 0
  | .held => 1
  | .overdue => 2
  | .recalled => 3

def CloseCause.code : CloseCause → BitVec 2
  | .command => 1
  | .line => 2

def CloseStage.code : CloseStage → BitVec 3
  | .first => 1
  | .second => 2
  | .third => 3
  | .fourth => 4
  | .fifth => 5

def RefusalCode.code : RefusalCode → BitVec 4
  | .portClosed => 1
  | .notHeld => 2
  | .mode => 3
  | .outOfPool => 4
  | .align => 5
  | .slotBusy => 6
  | .noClaim => 7
  | .badDescriptor => 8
  | .selfOverlap => 9
  | .supervisorOnly => 10
  | .commandBusy => 11
  | .poolParity => 12
  | .unmapped => 13
  | .staleHandle => 14
  | .renewDenied => 15

def FaultPlace.kindCode : FaultPlace → BitVec 3
  | .read _ => 1
  | .write _ => 2
  | .control _ => 3
  | .queued _ => 4

def CmdResult.code : CmdResult → BitVec 4
  | .ok => 1
  | .badPort => 2
  | .portState => 3
  | .staleHandle => 4
  | .leaseState => 5
  | .noSlot => 6
  | .overlap => 7
  | .badValue => 8
  | .inUse => 9

/-- The command codes of Table 48. -/
def Cmd.openPort : BitVec 4 := 1
def Cmd.closePort : BitVec 4 := 2
def Cmd.recallLease : BitVec 4 := 3
def Cmd.revokeLease : BitVec 4 := 4
def Cmd.adoptLease : BitVec 4 := 5
def Cmd.retireLease : BitVec 4 := 6
def Cmd.setPool : BitVec 4 := 7
def Cmd.partReset : BitVec 4 := 8

/-! ## The window maps (R160 to R163) -/

/-- The words of the control and supervisor windows (Tables 42 and 43). -/
inductive Reg where
  | portStatus | leaseTime | noticePending | noticeEnable | faultRecord | faultWhere | faultClear | holdQueue | viewIndex
  | view (i : Fin 4)
  | slotDescA (k : SlotNo) | slotDescB (k : SlotNo) | slotStatus (k : SlotNo) | slotCollect (k : SlotNo) | slotCancel (k : SlotNo)
  | command | cmdArg | cmdResult | portStates | supViewIndex | sview0 | sview1 | sviewOrphan
  | sviewHoldA (h : Fin 4) | sviewHoldB (h : Fin 4)
  | poolPages | collectTicks | graceTicks | orphanTicks | prescaleDiv | tickDiv | tickEnable
  | defaultTerm (n : Port) | termCap (n : Port)
  deriving DecidableEq, Repr

/-- One line of a window map: byte offset from the window's start, the word, and what it permits. -/
structure MapRow where
  offset : Nat
  reg : Reg
  readable : Bool
  writable : Bool
  deriving DecidableEq, Repr

/-- The block of five words of slot `k` (Table 42). -/
def slotRows (k : SlotNo) : List MapRow :=
  [⟨0x080 + 0x20 * k.val + 0x00, .slotDescA k, true, true⟩,
   ⟨0x080 + 0x20 * k.val + 0x04, .slotDescB k, true, true⟩,
   ⟨0x080 + 0x20 * k.val + 0x08, .slotStatus k, true, false⟩,
   ⟨0x080 + 0x20 * k.val + 0x0C, .slotCollect k, true, false⟩,
   ⟨0x080 + 0x20 * k.val + 0x10, .slotCancel k, false, true⟩]

/-- Table 42. -/
def controlMap : List MapRow :=
  [⟨0x000, .portStatus, true, false⟩,
   ⟨0x004, .leaseTime, true, false⟩,
   ⟨0x008, .noticePending, true, true⟩,
   ⟨0x00C, .noticeEnable, true, true⟩,
   ⟨0x010, .faultRecord, true, false⟩,
   ⟨0x014, .faultWhere, true, false⟩,
   ⟨0x018, .faultClear, false, true⟩,
   ⟨0x01C, .holdQueue, true, true⟩,
   ⟨0x020, .viewIndex, true, true⟩,
   ⟨0x024, .view 0, true, false⟩,
   ⟨0x028, .view 1, true, false⟩,
   ⟨0x02C, .view 2, true, false⟩,
   ⟨0x030, .view 3, true, false⟩]
  ++ slotRows 0 ++ slotRows 1 ++ slotRows 2 ++ slotRows 3

/-- The words of the supervisor window for holding place `h` (Table 43). -/
def holdRows (h : Fin 4) : List MapRow :=
  [⟨0x020 + 0x8 * h.val, .sviewHoldA h, true, false⟩,
   ⟨0x024 + 0x8 * h.val, .sviewHoldB h, true, false⟩]

/-- The words of the supervisor window for port `n` (Table 43). -/
def termRows (n : Port) : List MapRow :=
  [⟨0x060 + 0x8 * n.val, .defaultTerm n, true, true⟩,
   ⟨0x064 + 0x8 * n.val, .termCap n, true, true⟩]

/-- Table 43. -/
def supervisorMap : List MapRow :=
  [⟨0x000, .command, false, true⟩,
   ⟨0x004, .cmdArg, true, true⟩,
   ⟨0x008, .cmdResult, true, false⟩,
   ⟨0x00C, .portStates, true, false⟩,
   ⟨0x010, .supViewIndex, true, true⟩,
   ⟨0x014, .sview0, true, false⟩,
   ⟨0x018, .sview1, true, false⟩,
   ⟨0x01C, .sviewOrphan, true, false⟩,
   ⟨0x040, .poolPages, true, false⟩,
   ⟨0x044, .collectTicks, true, true⟩,
   ⟨0x048, .graceTicks, true, true⟩,
   ⟨0x04C, .orphanTicks, true, true⟩,
   ⟨0x050, .prescaleDiv, true, true⟩,
   ⟨0x054, .tickDiv, true, true⟩,
   ⟨0x058, .tickEnable, true, true⟩]
  ++ holdRows 0 ++ holdRows 1 ++ holdRows 2 ++ holdRows 3
  ++ termRows 0 ++ termRows 1 ++ termRows 2 ++ termRows 3

/-- The byte distance of a window word address from port address 1000000h. -/
def windowByte (a : BitVec 22) : Nat := 4 * a.toNat

/-- The address lies in the supervisor window, 1001000h to 1001FFFh (Table 40). -/
def inSupervisorWindow (a : BitVec 22) : Bool := decide (0x1000 ≤ windowByte a) && decide (windowByte a < 0x2000)

/-- The word an address holds, if it holds one (R160, R162, R163). Everything from 1002000h up holds none. -/
def rowAt (a : BitVec 22) : Option MapRow :=
  if windowByte a < 0x1000 then controlMap.find? (fun r => r.offset == windowByte a)
  else if windowByte a < 0x2000 then supervisorMap.find? (fun r => r.offset == windowByte a - 0x1000)
  else none

/-- Where a word lies: its distance in bytes from port address 1000000h (R162, R163). -/
def Reg.offset : Reg → Nat
  | .portStatus => 0x000
  | .leaseTime => 0x004
  | .noticePending => 0x008
  | .noticeEnable => 0x00C
  | .faultRecord => 0x010
  | .faultWhere => 0x014
  | .faultClear => 0x018
  | .holdQueue => 0x01C
  | .viewIndex => 0x020
  | .view i => 0x024 + 4 * i.val
  | .slotDescA k => 0x080 + 0x20 * k.val
  | .slotDescB k => 0x084 + 0x20 * k.val
  | .slotStatus k => 0x088 + 0x20 * k.val
  | .slotCollect k => 0x08C + 0x20 * k.val
  | .slotCancel k => 0x090 + 0x20 * k.val
  | .command => 0x1000
  | .cmdArg => 0x1004
  | .cmdResult => 0x1008
  | .portStates => 0x100C
  | .supViewIndex => 0x1010
  | .sview0 => 0x1014
  | .sview1 => 0x1018
  | .sviewOrphan => 0x101C
  | .sviewHoldA h => 0x1020 + 8 * h.val
  | .sviewHoldB h => 0x1024 + 8 * h.val
  | .poolPages => 0x1040
  | .collectTicks => 0x1044
  | .graceTicks => 0x1048
  | .orphanTicks => 0x104C
  | .prescaleDiv => 0x1050
  | .tickDiv => 0x1054
  | .tickEnable => 0x1058
  | .defaultTerm n => 0x1060 + 8 * n.val
  | .termCap n => 0x1064 + 8 * n.val

/-- The window word address of a word. -/
def Reg.addr (r : Reg) : BitVec 22 := BitVec.ofNat 22 (r.offset / 4)

/-- The port address of a window word address (R160). -/
def windowAddr (a : BitVec 22) : BitVec 25 := 0x1000000 + (a.setWidth 25 <<< 2)

/-- The port address of a pool word address (R160). -/
def poolAddr (a : BitVec 22) : BitVec 25 := a.setWidth 25 <<< 2

/-! ## Words written (Tables 45 to 47) -/

/-- SLOT_DESC_A: base in 29:16, count in 14:0 (R165). -/
def stagingOf (w : Word) : PageRange := ⟨field w 16 14, field w 0 15⟩

/-- The claim that SLOT_DESC_B's word and the staging describe (R27, R165). -/
def descriptorOf (range : PageRange) (w : Word) : Descriptor :=
  { range := range, mode := Mode.ofCode (field w 31 1), noWait := w.getLsbD 30, term := field w 0 16 }

/-- A handle: entry index in 29:24, generation in 23:16 (R166). -/
def handleOf (w : Word) : Handle := ⟨entryOf (field w 24 6), field w 16 8⟩

/-- A word written to HOLD_QUEUE (R84, R166); a RELEASE carries no term. -/
def holdItemOf (w : Word) : HoldItem :=
  if w.getLsbD 31 then { kind := .renew, handle := handleOf w, term := field w 0 16 }
  else { kind := .release, handle := handleOf w, term := 0 }

/-- VIEW_INDEX and SUP_VIEW_INDEX: the entry named in bits 5:0 (R20, R166). -/
def viewIndexOf (w : Word) : EntryId := entryOf (field w 0 6)

/-- CMD_ARG's named fields; bit 15 is named by no table and reads as zero (R164, R167). -/
def cmdArgOf (w : Word) : Word := w &&& 0xFFFF7FFF

/-- The port field of CMD_ARG (R167). -/
def argPort (w : Word) : Port := portOf (field w 30 2)

/-- The value field of CMD_ARG (R167). -/
def argValue (w : Word) : BitVec 15 := field w 0 15

/-! ## Words read (Tables 45 to 47) -/

def PageRange.word (r : PageRange) : Word := place r.base 16 ||| place r.count 0

/-- SLOT_DESC_B as read back: the claim the slot holds, or zero (R38). -/
def Slot.descBWord : Slot → Word
  | .empty => 0
  | .waiting d => place d.mode.code 31 ||| placeBit d.noWait 30 ||| place d.term 0
  | .granted d _ => place d.mode.code 31 ||| placeBit d.noWait 30 ||| place d.term 0
  | .denied d _ => place d.mode.code 31 ||| placeBit d.noWait 30 ||| place d.term 0

/-- SLOT_STATUS, given the number of claims ahead (R37). -/
def Slot.statusWord (ahead : Nat) : Slot → Word
  | .empty => 0
  | .waiting d => place (1 : BitVec 2) 0 ||| placeBit d.noWait 2 ||| place (BitVec.ofNat 4 ahead) 4
  | .granted d g => place (2 : BitVec 2) 0 ||| placeBit d.noWait 2 ||| place g.collect 8 ||| place g.kind.code 16
  | .denied d c => place (3 : BitVec 2) 0 ||| placeBit d.noWait 2 ||| place c.code 18

/-- The grant word (R61). -/
def Grant.word (g : Grant) : Word :=
  place (2 : BitVec 2) 0 ||| place g.kind.code 2 ||| placeBit g.clamped 4 ||| place (entryBits g.handle.entry) 8
    ||| place g.handle.generation 16

/-- The denial word (R61). -/
def DenialCause.word (c : DenialCause) : Word := place (3 : BitVec 2) 0 ||| place c.code 6

def Handle.word (h : Handle) : Word := place (entryBits h.entry) 24 ||| place h.generation 16

/-- VIEW_0 and SVIEW_0 (R166). -/
def EntryItems.word0 (i : EntryItems) : Word :=
  placeBit true 31 ||| place i.state.code 28 ||| place i.mode.code 27 ||| placeBit i.contested 26
    ||| place (BitVec.ofNat 3 i.nHoldings) 20 ||| place (BitVec.ofNat 4 i.inFlight) 16 ||| place i.generation 8
    ||| place (entryBits i.index) 0

/-- VIEW_2, and SVIEW_HOLD_A but for its port field (R166). -/
def Holding.wordA (h : Holding) : Word :=
  placeBit true 31 ||| place h.state.code 28 ||| placeBit h.forced 27 ||| place h.grace 16 ||| place h.term 0

/-- VIEW_3 and SVIEW_HOLD_B (R166). -/
def Holding.wordB (h : Holding) : Word := place h.granted 0

/-- VIEW_0 to VIEW_3; with no snapshot every item reads zero (R21). -/
def viewWord (v : Option LeaseView) (i : Fin 4) : Word :=
  match v with
  | none => 0
  | some v =>
    match i with
    | 0 => v.items.word0
    | 1 => v.items.range.word
    | 2 => (v.own.map Holding.wordA).getD 0
    | 3 => (v.own.map Holding.wordB).getD 0

/-- SVIEW_HOLD_A (R166). -/
def Holding.supWordA (h : Holding) : Word := h.wordA ||| place (portBits h.port) 24

/-- SVIEW_ORPHAN (R166). -/
def OrphanRecord.word (o : OrphanRecord) : Word :=
  placeBit true 31 ||| place (portBits o.former) 28 ||| placeBit o.timed 27 ||| place o.counter 0

/-- The low byte of PORT_STATUS (R122, R167). -/
def PortRec.statusByte (r : PortRec) : BitVec 8 :=
  let line : BitVec 8 := (BitVec.ofBool r.lineHeld).setWidth 8 <<< 7
  match r.state with
  | .closed => line
  | .opened => line ||| 1
  | .closing c st => line ||| (st.code.setWidth 8 <<< 4) ||| (c.code.setWidth 8 <<< 2) ||| 2

/-- FAULT_RECORD (R158, R167). -/
def faultWord (f : Option FaultRecord) : Word :=
  match f with
  | none => 0
  | some f => placeBit true 31 ||| placeBit f.more 30 ||| place f.place.kindCode 8 ||| place f.code.code 0

/-- FAULT_WHERE (R158, R167). -/
def faultWhereWord (f : Option FaultRecord) : Word :=
  match f with
  | none => 0
  | some f =>
    match f.place with
    | .read a => place a 0
    | .write a => place a 0
    | .control a => place a 0
    | .queued h => h.word

/-- CMD_RESULT (R139, R167). -/
def cmdResultWord (busy : Bool) (r : Option ResultWord) : Word :=
  placeBit busy 31 |||
    match r with
    | none => 0
    | some r => place r.code 8 ||| place r.result.code 0

end Sys2Proof.Machine
end

