-- ==== Sys2Proof/Machine/Ops.lean ====
section
/-! DEFINITION. The named operations on the tables of the state and on the pool memory's cells. -/

namespace Sys2Proof.Machine

/-! ## Tables of the state -/

/-- All ports, P0 first. -/
def allPorts : List Port := List.finRange 4

/-- All slots of a port, S0 first. -/
def allSlots : List SlotNo := List.finRange 4

/-- All entries, entry 0 first. -/
def allEntries : List EntryId := List.finRange 64

def State.port (s : State) (p : Port) : PortRec := s.ports.look p

def State.setPort (s : State) (p : Port) (r : PortRec) : State := { s with ports := s.ports.put p r }

def State.modPort (s : State) (p : Port) (f : PortRec → PortRec) : State := s.setPort p (f (s.port p))

def State.entry (s : State) (e : EntryId) : Entry := s.entries.look e

def State.setEntry (s : State) (e : EntryId) (x : Entry) : State := { s with entries := s.entries.put e x }

def State.modEntry (s : State) (e : EntryId) (f : Entry → Entry) : State := s.setEntry e (f (s.entry e))

def State.slot (s : State) (p : Port) (k : SlotNo) : Slot := (s.port p).slots.look k

def State.setSlot (s : State) (p : Port) (k : SlotNo) (x : Slot) : State :=
  s.modPort p fun r => { r with slots := r.slots.put k x }

def State.termsOf (s : State) (p : Port) : PortTerms := s.terms.look p

/-- The port takes transactions from its host: NRESET and its line are released, and it has no transaction under way, that
is no read outstanding (R95, R123, R159). -/
def State.takes (s : State) (p : Port) : Bool := !s.nreset && !(s.port p).lineHeld && (s.port p).read.isNone

/-- The waiting claim at a place, if the slot there is WAITING. -/
def State.claimAt (s : State) (c : ClaimId) : Option Descriptor :=
  match s.slot c.port c.slot with
  | .waiting d => some d
  | _ => none

/-- The descriptors of some claims, in their order. -/
def State.claims (s : State) (cs : List ClaimId) : List Descriptor := cs.filterMap s.claimAt

/-- The number of claims in the wait queue before this one (R37). -/
def State.ahead (s : State) (c : ClaimId) : Nat := (s.waitQueue.takeWhile (fun x => x != c)).length

/-! ## Cells of the pool memory -/

/-- What is listed at an address; `none` where nothing has been written. -/
def Cells.get {α : Type} : Cells α → Nat → Option α
  | [], _ => none
  | (b, x) :: rest, a => if a = b then some x else if a < b then none else Cells.get rest a

/-- The cells with a value written at an address, in rising order of address. -/
def Cells.set {α : Type} : Cells α → Nat → α → Cells α
  | [], a, v => [(a, v)]
  | (b, x) :: rest, a, v =>
    if a = b then (a, v) :: rest else if a < b then (a, v) :: (b, x) :: rest else (b, x) :: Cells.set rest a v

/-- Every listed address is above `a`, and the addresses rise strictly. -/
def Cells.above {α : Type} (a : Nat) : Cells α → Bool
  | [] => true
  | (b, _) :: rest => decide (a < b) && Cells.above b rest

/-- The canonical form: addresses strictly rising. No listed cell equals what an unlisted address reads as, since a listed
cell holds a value and an unlisted address holds none (notes/assumptions/11.md). -/
def Cells.wf {α : Type} : Cells α → Bool
  | [] => true
  | (b, _) :: rest => Cells.above b rest

/-- The data byte the SRAM holds at a pool byte address: what was written there, or what the byte came up with (R108). -/
def State.poolByte (s : State) (a : Nat) : Byte := (Cells.get s.poolData a).getD (Config.sramByte a)

/-- The parity bit the SRAM holds beside the byte at a pool byte address (R108). -/
def State.poolParityAt (s : State) (a : Nat) : Bool := (Cells.get s.poolParity a).getD (Config.sramParity a)

/-- One lane written: a byte and its parity bit. -/
def State.setLane (s : State) (a : Nat) (b : Byte) (par : Bool) : State :=
  { s with poolData := Cells.set s.poolData a b, poolParity := Cells.set s.poolParity a par }

end Sys2Proof.Machine
end

