-- ==== Sys2Proof/Machine/Flags.lean ====
section
/-! DEFINITION. Notice flags, the attention line, the fault record and the answers of a port
(10_notices_attention_and_the_fault_record.md, 11_port_transactions_and_word_formats.md). -/

namespace Sys2Proof.Machine

/-- The flag of a notice kind, at its bit of NOTICE_PENDING and NOTICE_ENABLE (Table 47). -/
def Notice.mask : Notice → BitVec 8
  | .grant => 0x01
  | .lapse => 0x02
  | .recall => 0x04
  | .revoke => 0x08
  | .fault => 0x10
  | .command => 0x20
  | .orphan => 0x40
  | .orphanEnd => 0x80

/-- The kinds a port has: all eight at P0, the first five at P1 to P3 (R152, R167). -/
def noticeKinds (p : Port) : BitVec 8 := if p = 0 then 0xFF else 0x1F

/-- The notice unit is asked to set a notice: the flag becomes set at an OPEN or CLOSING port, and the request is dropped at
a CLOSED one (R152, R133). -/
def State.setNotice (s : State) (p : Port) (k : Notice) : State :=
  if (s.port p).state = .closed then s
  else s.modPort p fun r => { r with noticesPending := r.noticesPending ||| k.mask }

/-- One notice set at each of some ports. -/
def State.noticeAll (s : State) (ps : List Port) (k : Notice) : State := ps.foldl (fun s p => s.setNotice p k) s

/-- The attention line of a port: asserted exactly when the port is OPEN and a notice is both pending and enabled (R156). -/
def State.attention (s : State) (p : Port) : Bool :=
  (s.port p).state == .opened && ((s.port p).noticesPending &&& (s.port p).noticesEnabled) != 0

/-- The fault record after an offer: captured if it was empty, and `more` set if it was valid (R157). -/
def FaultRecord.offered (f : Option FaultRecord) (code : RefusalCode) (place : FaultPlace) : FaultRecord :=
  match f with
  | none => { code := code, place := place, more := false }
  | some f => { f with more := true }

/-- A fault is offered to a port's fault record, and the port's FAULT notice is set (R157). -/
def State.offerFault (s : State) (p : Port) (code : RefusalCode) (place : FaultPlace) : State :=
  (s.modPort p fun r => { r with fault := some (FaultRecord.offered r.fault code place) }).setNotice p .fault

/-- The port's answer lines carry an answer (R159). -/
def State.answer (s : State) (p : Port) (a : Answer) : State := s.modPort p fun r => { r with answer := a }

/-- The port interface answers a transaction DONE with no words. -/
def State.done (s : State) (p : Port) : State := s.answer p (.done [])

/-- The port interface answers a single-word read DONE. -/
def State.doneWord (s : State) (p : Port) (w : Word) : State := s.answer p (.done [w])

/-- A transaction is refused with a code other than PORT_CLOSED: the fault is offered to the record (R157). -/
def State.refuse (s : State) (p : Port) (code : RefusalCode) (place : FaultPlace) : State :=
  (s.offerFault p code place).answer p (.refuse code)

/-- A transaction is refused with PORT_CLOSED, which is not offered to the record and sets no notice (R121). -/
def State.refuseClosed (s : State) (p : Port) : State := s.answer p (.refuse .portClosed)

/-- What a transaction of a port does, if the port interface takes it; presented at any other time it has no effect (R95,
R123, R159; notes/assumptions/9.md). -/
def State.transact (s : State) (p : Port) (f : State → State) : State := if s.takes p then f s else s

/-- A write of NOTICE_PENDING: each kind written as one is cleared (R154). -/
def State.acknowledge (s : State) (p : Port) (w : Word) : State :=
  (s.modPort p fun r => { r with noticesPending := r.noticesPending &&& ~~~(field w 0 8 &&& noticeKinds p) }).done p

/-- A write of NOTICE_ENABLE: the enable flags are replaced, one for each kind the port has (R153). -/
def State.setEnables (s : State) (p : Port) (w : Word) : State :=
  (s.modPort p fun r => { r with noticesEnabled := field w 0 8 &&& noticeKinds p }).done p

/-- A write of FAULT_CLEAR: the record is emptied (R158). -/
def State.clearFault (s : State) (p : Port) : State := (s.modPort p fun r => { r with fault := none }).done p

end Sys2Proof.Machine
end

