-- ==== Sys2Proof/Machine/Leases.lean ====
section
/-! DEFINITION. The lease table: ranges and conflict, holdings, the freeing of an entry, recall and contest, and orphans
(01_leases_and_the_lease_table.md, 05_holdings_over_their_term.md). The completion of a command stands here because the
freeing of an entry completes one (R19, R139). -/

namespace Sys2Proof.Machine

/-! ## Ranges and conflict (R2, R3) -/

/-- The range is valid in a pool of `pages` pages (R2, R28). -/
def PageRange.valid (r : PageRange) (pages : BitVec 15) : Bool :=
  r.count != 0 && decide (r.base.toNat + r.count.toNat ≤ pages.toNat)

/-- The two ranges share a page (R3). -/
def PageRange.overlaps (a b : PageRange) : Bool :=
  decide (a.base.toNat < b.base.toNat + b.count.toNat) && decide (b.base.toNat < a.base.toNat + a.count.toNat)

/-- The page lies in the range (R2). -/
def PageRange.contains (r : PageRange) (page : Nat) : Bool :=
  decide (r.base.toNat ≤ page) && decide (page < r.base.toNat + r.count.toNat)

/-- Two modes conflict on shared pages when one of them is exclusive (R3). -/
def Mode.clash (a b : Mode) : Bool := a == .exclusive || b == .exclusive

/-- Two claims conflict (R3). -/
def Descriptor.conflicts (a b : Descriptor) : Bool := a.range.overlaps b.range && a.mode.clash b.mode

/-- The mode an entry counts with: an ORPHANED entry counts as EXCLUSIVE (R3). -/
def Entry.countsAs (x : Entry) : Mode := if x.state = .orphaned then .exclusive else x.mode

/-- The entry conflicts with the claim; a FREE entry conflicts with nothing (R3, R43). -/
def Entry.conflicts (x : Entry) (d : Descriptor) : Bool :=
  x.state != .free && x.range.overlaps d.range && x.countsAs.clash d.mode

/-! ## Holdings (R10, R11) -/

/-- The port's record in the entry. -/
def Entry.holdingOf (x : Entry) (p : Port) : Option Holding := x.holdings.find? (fun h => h.port == p)

/-- A list of holdings with one more, in its place by port number (R11). -/
def insertHolding (h : Holding) : List Holding → List Holding
  | [] => [h]
  | g :: rest => if h.port < g.port then h :: g :: rest else g :: insertHolding h rest

/-- A holding as a grant makes it (R51, R145). -/
def Holding.award (p : Port) (term : BitVec 16) : Holding :=
  { port := p, state := .awarded, term := term, granted := term, grace := 0, forced := false }

/-- The holding is HELD, OVERDUE or RECALLED, so that its port may access the pool through it (R10, R73). -/
def Holding.collected (h : Holding) : Bool := h.state != .awarded

/-- The holding recalled with this grace (R76, R78, R80). -/
def Holding.recall (h : Holding) (grace : BitVec 8) (forced : Bool) : Holding :=
  { h with state := .recalled, term := 0, grace := grace, forced := forced }

/-- The holding as OVERDUE (R76, R79). -/
def Holding.overdue (h : Holding) : Holding := { h with state := .overdue, term := 0, grace := 0, forced := false }

/-- The holding renewed with this term (R87). -/
def Holding.renew (h : Holding) (term : BitVec 16) : Holding :=
  { h with state := .held, term := term, granted := term, grace := 0, forced := false }

/-- One port's record changed, the others left as they are. -/
def Entry.modHolding (x : Entry) (p : Port) (f : Holding → Holding) : Entry :=
  { x with holdings := x.holdings.map fun h => if h.port = p then f h else h }

/-! ## Completion of a command and freeing of an entry (R139, R19, R17, R18) -/

/-- The command engine completes its command: the result word is written, the engine is IDLE, and P0's COMMAND notice is
set (R139). -/
def State.complete (s : State) (code : BitVec 4) (r : CmdResult) : State :=
  ({ s with engine := none, result := some ⟨code, r⟩ } : State).setNotice 0 .command

/-- The entry as FREE, keeping its generation (R8, R19). -/
def Entry.freed (x : Entry) : Entry := { Entry.unused with generation := x.generation }

/-- The command engine waits for this entry to become FREE (R143, R146). -/
def Command.waitsFor (c : Command) (e : EntryId) : Bool :=
  (c.code == Cmd.revokeLease || c.code == Cmd.retireLease) && (handleOf c.arg).entry == e

/-- The entry becomes FREE: it is cleared, the arbiter is told, and a REVOKE_LEASE or RETIRE_LEASE that waits for it
completes (R19, R7, R47). -/
def State.freeEntry (s : State) (e : EntryId) : State :=
  let t : State := { s.modEntry e Entry.freed with evalCalled := true }
  match s.engine with
  | some c => if c.waitsFor e then t.complete c.code .ok else t
  | none => t

/-- The entry leaves LIVE or ORPHANED with no holder: DRAINING if bursts are in flight, FREE otherwise (R17, R18). -/
def State.leave (s : State) (e : EntryId) : State :=
  if (s.entry e).inFlight = 0 then s.freeEntry e
  else s.modEntry e fun x => { x with state := .draining, holdings := [], orphan := none, tickDue := false }

/-- A port's holding is removed, and the entry leaves LIVE if it was the last (R17). -/
def State.removeHolding (s : State) (e : EntryId) (p : Port) : State :=
  let t := s.modEntry e fun x => { x with holdings := x.holdings.filter fun h => h.port != p }
  if (t.entry e).holdings.isEmpty then t.leave e else t

/-- A completion report: the in-flight count falls, and a DRAINING entry whose count falls to zero becomes FREE (R14, R18,
R106). -/
def State.lowerInFlight (s : State) (e : EntryId) : State :=
  let t := s.modEntry e fun x => { x with inFlight := x.inFlight - 1 }
  if (t.entry e).state = .draining ∧ (t.entry e).inFlight = 0 then t.freeEntry e else t

/-! ## Orphans (R12) -/

/-- The entry becomes ORPHANED with a new record, and P0's ORPHAN notice is set (R12, R67, R130). A tick that waits at the
entry goes on waiting for its event there, which then lowers the new counter; if the record is not timed, the tick takes no
event on the entry (R116; notes/assumptions/6.md). -/
def State.makeOrphan (s : State) (e : EntryId) (former : Port) : State :=
  (s.modEntry e fun x =>
    { x with state := .orphaned, holdings := [], tickDue := x.tickDue && s.orphanTicks != 0,
             orphan := some { former := former, counter := s.orphanTicks, timed := s.orphanTicks != 0 } }).setNotice 0 .orphan

/-! ## Contest and recall (R7, R57, R78 to R80) -/

/-- The report that an entry has become contested: the flag is set, and the OVERDUE holdings of a LIVE entry are recalled
(R7, R78). A FREE entry's flag stays clear. -/
def State.reportContested (s : State) (e : EntryId) : State :=
  let x := s.entry e
  match x.state with
  | .free => s
  | .live =>
    (s.setEntry e { x with
        contested := true
        holdings := x.holdings.map fun h => if h.state = .overdue then h.recall s.graceTicks false else h }).noticeAll
      ((x.holdings.filter fun h => h.state == .overdue).map Holding.port) .recall
  | .draining => s.setEntry e { x with contested := true }
  | .orphaned => s.setEntry e { x with contested := true }

/-- The report that an entry is no longer contested: the flag is cleared, and recalls that were not forced are lifted (R7,
R79). -/
def State.reportUncontested (s : State) (e : EntryId) : State :=
  s.modEntry e fun x =>
    { x with
        contested := false
        holdings := if x.state = .live then
            x.holdings.map fun h => if h.state = .recalled ∧ h.forced = false then h.overdue else h
          else x.holdings }

/-- The supervisor's recall: every collected holding becomes RECALLED and forced with a fresh grace, and its port's RECALL
notice is set; AWARDED ones are passed over (R80). -/
def State.forceRecall (s : State) (e : EntryId) : State :=
  let x := s.entry e
  (s.setEntry e { x with
      holdings := x.holdings.map fun h => if h.collected then h.recall s.graceTicks true else h }).noticeAll
    ((x.holdings.filter Holding.collected).map Holding.port) .recall

/-! ## Terms (R52) -/

/-- The term a request resolves to, and whether it was cut to the port's cap (R52). -/
def PortTerms.resolve (t : PortTerms) (requested : BitVec 16) : BitVec 16 × Bool :=
  let wanted := if requested = 0 then t.default else requested
  if t.cap < wanted then (t.cap, true) else (wanted, false)

/-- The generation after this one: 255 is followed by 1 (R8). -/
def nextGeneration (g : BitVec 8) : BitVec 8 := if g = 255 then 1 else g + 1

/-! ## Access (R15) -/

/-- The covering entry of a port at a page (R15). -/
def State.covering (s : State) (p : Port) (page : Nat) : Option EntryId :=
  allEntries.find? fun e =>
    (s.entry e).state != .free && (s.entry e).range.contains page && ((s.entry e).holdingOf p).isSome

/-! ## A port's own ranges (R29) -/

/-- The range overlaps a holding of the port, whatever its state, or a WAITING or GRANTED claim of it (R29). -/
def State.overlapsOwn (s : State) (p : Port) (r : PageRange) : Bool :=
  (allEntries.any fun e => ((s.entry e).holdingOf p).isSome && (s.entry e).range.overlaps r) ||
  (allSlots.any fun k =>
    match s.slot p k with
    | .empty => false
    | .waiting d => d.range.overlaps r
    | .granted d _ => d.range.overlaps r
    | .denied _ _ => false)

/-! ## The lease tick on an entry (R74, R76, R81, R82, R116, R147) -/

/-- This tick ends the holding's term or its grace. -/
def Holding.ends (h : Holding) : Bool :=
  match h.state with
  | .awarded => false
  | .held => decide (h.term ≤ 1)
  | .overdue => false
  | .recalled => decide (h.grace ≤ 1)

/-- The holding after a tick; `none` when its grace runs out (R74, R76, R81, R82). -/
def Holding.tick (contested : Bool) (grace : BitVec 8) (h : Holding) : Option Holding :=
  match h.state with
  | .awarded => some h
  | .held =>
    if h.term ≤ 1 then some (if contested then h.recall grace false else h.overdue) else some { h with term := h.term - 1 }
  | .overdue => some h
  | .recalled => if h.grace ≤ 1 then none else some { h with grace := h.grace - 1 }

/-- The ports whose holdings of this state end on this tick. -/
def Entry.ending (x : Entry) (st : HoldingState) : List Port :=
  (x.holdings.filter fun h => h.state == st && h.ends).map Holding.port

/-- The lease tick takes an event on this entry: LIVE, or ORPHANED with a timed record (R116). -/
def Entry.counted (x : Entry) : Bool :=
  match x.state with
  | .free => false
  | .live => true
  | .draining => false
  | .orphaned => (x.orphan.map OrphanRecord.timed).getD false

/-- A tick taken now ends a term, a grace or the orphan's wait on this entry. -/
def Entry.tickEnds (x : Entry) : Bool :=
  match x.state with
  | .free => false
  | .live => x.holdings.any Holding.ends
  | .draining => false
  | .orphaned =>
    match x.orphan with
    | none => false
    | some o => o.timed && decide (o.counter ≤ 1)

/-- A lease tick's event on a LIVE entry, with every holding dealt with in it (R74, R76, R81, R82). -/
def State.tickLive (s : State) (e : EntryId) : State :=
  let x := s.entry e
  let t := ((s.setEntry e { x with
      tickDue := false, holdings := x.holdings.filterMap (Holding.tick x.contested s.graceTicks) }).noticeAll
    (if x.contested then x.ending .held else []) .recall).noticeAll (x.ending .recalled) .revoke
  if !x.holdings.isEmpty && (t.entry e).holdings.isEmpty then t.leave e else t

/-- A lease tick's event on an ORPHANED entry (R147). -/
def State.tickOrphan (s : State) (e : EntryId) : State :=
  match (s.entry e).orphan with
  | none => s.modEntry e fun x => { x with tickDue := false }
  | some o =>
    if !o.timed then s.modEntry e fun x => { x with tickDue := false }
    else if o.counter ≤ 1 then (s.leave e).setNotice 0 .orphanEnd
    else s.modEntry e fun x => { x with tickDue := false, orphan := some { o with counter := o.counter - 1 } }

/-- A lease tick's event on an entry; on a FREE or DRAINING entry there is none (R116). -/
def State.tickEntry (s : State) (e : EntryId) : State :=
  match (s.entry e).state with
  | .free => s.modEntry e fun x => { x with tickDue := false }
  | .live => s.tickLive e
  | .draining => s.modEntry e fun x => { x with tickDue := false }
  | .orphaned => s.tickOrphan e

end Sys2Proof.Machine
end

