-- ==== Sys2Proof/Machine/Arbiter.lean ====
section
/-! DEFINITION. The grant arbiter: grantability, the grant, contest, and the walk of the wait queue (03_the_grant_arbiter.md). -/

namespace Sys2Proof.Machine

/-- The join target of a SHARED claim: the LIVE SHARED entry of exactly its range in which its port has no holding (R44). -/
def State.joinTarget (s : State) (p : Port) (d : Descriptor) : Option EntryId :=
  if d.mode = .shared then
    allEntries.find? fun e =>
      (s.entry e).state == .live && (s.entry e).mode == .shared && (s.entry e).range == d.range &&
        ((s.entry e).holdingOf p).isNone
  else none

/-- The lowest-numbered FREE entry (R13). -/
def State.lowestFree (s : State) : Option EntryId := allEntries.find? fun e => (s.entry e).state == .free

/-- Some entry that is not FREE conflicts with the claim: its first condition fails (R43). -/
def State.entryConflict (s : State) (d : Descriptor) : Bool := allEntries.any fun e => (s.entry e).conflicts d

/-- Some earlier waiting claim conflicts with the claim: its second condition fails (R45). -/
def claimConflict (earlier : List Descriptor) (d : Descriptor) : Bool := earlier.any fun c => c.conflicts d

/-- The test of R42, for a claim of port `p` that stands behind the `earlier` waiting claims. -/
def State.grantable (s : State) (earlier : List Descriptor) (p : Port) (d : Descriptor) : Bool :=
  !s.entryConflict d && !claimConflict earlier d && ((s.joinTarget p d).isSome || s.lowestFree.isSome)

/-- The entry as allocated to a claim (R13, R51). -/
def Entry.allocated (x : Entry) (p : Port) (d : Descriptor) (term : BitVec 16) (contested : Bool) : Entry :=
  { state := .live, generation := nextGeneration x.generation, mode := d.mode, range := d.range,
    holdings := [Holding.award p term], inFlight := 0, contested := contested, orphan := none, tickDue := false }

/-- A grant is written into its slot, the claim leaves the queue, and the GRANT notice is set (R51 steps 3, 4 and 6, R53,
R54). -/
def State.award (s : State) (p : Port) (k : SlotNo) (d : Descriptor) (h : Handle) (kind : GrantKind) : State :=
  let (term, clamped) := (s.termsOf p).resolve d.term
  let g : Grant :=
    { handle := h, kind := kind, term := term, clamped := clamped, collect := s.collectTicks, tickDue := false }
  (({ s with waitQueue := s.waitQueue.erase ⟨p, k⟩ } : State).setSlot p k (.granted d g)).setNotice p .grant

/-- The grant of a claim, found grantable, by joining or by allocation (R51). A new lease is contested from its grant if a
claim still waiting conflicts with it (R55). -/
def State.grantClaim (s : State) (p : Port) (k : SlotNo) (d : Descriptor) : State :=
  let term := ((s.termsOf p).resolve d.term).1
  match s.joinTarget p d with
  | some e =>
    (s.modEntry e fun x => { x with holdings := insertHolding (Holding.award p term) x.holdings }).award p k d
      ⟨e, (s.entry e).generation⟩ .joined
  | none =>
    match s.lowestFree with
    | some e =>
      let waiting := s.claims (s.waitQueue.erase ⟨p, k⟩)
      (s.modEntry e fun x => x.allocated p d term (claimConflict waiting d)).award p k d
        ⟨e, nextGeneration (s.entry e).generation⟩ .new
    | none => s

/-- One step of a walk: the claim is granted if it is grantable when it is reached, and stays otherwise (R48). -/
def State.walkStep (s : State) (c : ClaimId) : State :=
  match s.claimAt c with
  | none => s
  | some d =>
    if s.grantable (s.claims (s.waitQueue.takeWhile fun x => x != c)) c.port d then s.grantClaim c.port c.slot d else s

/-- A walk of the wait queue, from the oldest claim to the newest (R48). -/
def State.walk (s : State) : State := s.waitQueue.foldl State.walkStep s

/-- A new WAITING claim makes contested each entry it conflicts with that was not contested already (R55). -/
def State.contest (s : State) (d : Descriptor) : State :=
  allEntries.foldl
    (fun s e => if (s.entry e).conflicts d && !(s.entry e).contested then s.reportContested e else s) s

/-- A claim that has left the wait queue other than by grant: each entry it conflicted with, and no other waiting claim
does, is no longer contested (R56). -/
def State.uncontest (s : State) (d : Descriptor) : State :=
  allEntries.foldl
    (fun s e =>
      if (s.entry e).conflicts d && !((s.claims s.waitQueue).any fun c => (s.entry e).conflicts c) then
        s.reportUncontested e
      else s) s

/-- A WAITING claim leaves its slot and the queue by cancellation or withdrawal: contest is reported and the arbiter is told
(R34, R35, R40, R56). -/
def State.withdraw (s : State) (p : Port) (k : SlotNo) (d : Descriptor) : State :=
  let t := (({ s with waitQueue := s.waitQueue.erase ⟨p, k⟩ } : State).setSlot p k .empty).uncontest d
  { t with evalCalled := true }

/-- An arriving claim, in an evaluation of its own: the queue is walked, and the claim is then judged behind every claim
still waiting. It is granted, waits, or is denied (R30 to R32, R48, R50). -/
def State.arrive (s : State) (p : Port) (k : SlotNo) (d : Descriptor) : State :=
  let t := s.walk
  let earlier := t.claims t.waitQueue
  if t.grantable earlier p d then t.grantClaim p k d
  else if d.noWait then
    let cause := if t.entryConflict d || claimConflict earlier d then DenialCause.conflict else DenialCause.tableFull
    (t.setSlot p k (.denied d cause)).setNotice p .grant
  else
    (({ t with waitQueue := t.waitQueue ++ [⟨p, k⟩] } : State).setSlot p k (.waiting d)).contest d

/-- EVALUATION (R47, R48): if an event has called for one, the arbiter walks its wait queue. Without a call none takes
place (notes/assumptions/7.md). -/
def execEvaluation (s : State) : Host.Outcome State Fault Refusal :=
  .next (if s.evalCalled then ({ s with evalCalled := false } : State).walk else s)

end Sys2Proof.Machine
end

