-- ==== Sys2Proof/Machine/Claims.lean ====
section
/-! DEFINITION. Claim slots: sending, cancelling and collecting a claim, giving back a grant, and lapse
(02_claim_slots_and_the_wait_queue.md, 04_collection_lapse_and_giving_back.md). -/

namespace Sys2Proof.Machine

/-- A single-word write of SLOT_DESC_B by an OPEN port: the three checks of R27, and the arrival of the claim. -/
def State.sendClaim (s : State) (p : Port) (k : SlotNo) (w : Word) (place : FaultPlace) : State :=
  let range := (s.port p).staging.look k
  if s.slot p k ≠ .empty then s.refuse p .slotBusy place
  else if !range.valid s.poolPages then s.refuse p .badDescriptor place
  else if s.overlapsOwn p range then s.refuse p .selfOverlap place
  else (s.arrive p k (descriptorOf range w)).done p

/-- The giving back of a grant by lapse, cancellation or withdrawal (R66, R67): the slot becomes EMPTY, and the holding is
removed, or the entry of an ADOPTED grant returns to ORPHANED. -/
def State.giveBack (s : State) (p : Port) (k : SlotNo) (g : Grant) : State :=
  let t := s.setSlot p k .empty
  match g.kind with
  | .new => t.removeHolding g.handle.entry p
  | .joined => t.removeHolding g.handle.entry p
  | .adopted => t.makeOrphan g.handle.entry p

/-- A single-word write of SLOT_CANCEL by an OPEN port (R35). -/
def State.cancelSlot (s : State) (p : Port) (k : SlotNo) (place : FaultPlace) : State :=
  match s.slot p k with
  | .empty => s.refuse p .noClaim place
  | .waiting d => (s.withdraw p k d).done p
  | .granted _ g => (s.giveBack p k g).done p
  | .denied _ _ => (s.setSlot p k .empty).done p

/-- The collecting of a grant: the AWARDED holding becomes HELD with the term it was given, an ADOPTED grant's orphan record
is discarded, and the slot becomes EMPTY (R60). -/
def State.collectGrant (s : State) (p : Port) (k : SlotNo) (g : Grant) : State :=
  (s.modEntry g.handle.entry fun x =>
    let y := x.modHolding p fun h => if h.state = .awarded then { h with state := .held } else h
    if g.kind = .adopted then { y with orphan := none } else y).setSlot p k .empty

/-- A single-word read of SLOT_COLLECT by an OPEN port (R59 to R62). -/
def State.collectSlot (s : State) (p : Port) (k : SlotNo) (place : FaultPlace) : State :=
  match s.slot p k with
  | .empty => s.refuse p .noClaim place
  | .waiting _ => s.answer p .retry
  | .granted _ g => (s.collectGrant p k g).doneWord p g.word
  | .denied _ c => (s.setSlot p k .empty).doneWord p c.word

/-- A lease tick's event on a slot: the collect counter of a GRANTED slot falls, and the grant lapses when it reaches zero
(R64, R65, R116). -/
def State.tickSlot (s : State) (p : Port) (k : SlotNo) : State :=
  match s.slot p k with
  | .empty => s
  | .waiting _ => s
  | .denied _ _ => s
  | .granted d g =>
    if g.collect ≤ 1 then (s.giveBack p k g).setNotice p .lapse
    else s.setSlot p k (.granted d { g with collect := g.collect - 1, tickDue := false })

/-- A tick that was handed to the slot waits there. -/
def Slot.tickDue : Slot → Bool
  | .empty => false
  | .waiting _ => false
  | .denied _ _ => false
  | .granted _ g => g.tickDue

/-- LAPSE (R65, R116): the tick that was handed to the slot takes its event there, and the grant lapses if that brings its
collect counter to zero. While the tick enable is off no counter moves (R114; notes/assumptions/4.md). -/
def execLapse (p : Port) (k : SlotNo) (s : State) : Host.Outcome State Fault Refusal :=
  .next (if (s.slot p k).tickDue && s.tickEnable then s.tickSlot p k else s)

end Sys2Proof.Machine
end

