-- ==== Sys2Proof/Machine/Holdings.lean ====
section
/-! DEFINITION. The events of a lease tick on an entry, and the holding queue with its releases and renewals
(05_holdings_over_their_term.md, 09_supervision.md). -/

namespace Sys2Proof.Machine

/-- The state of the port's record in an entry, if it has one. -/
def Entry.holdingState (x : Entry) (p : Port) : Option HoldingState := (x.holdingOf p).map Holding.state

/-- The tick handed to an entry may take its event there: it has not been taken, and the tick enable is on (R114, R116). -/
def State.tickWaits (s : State) (e : EntryId) : Bool := (s.entry e).tickDue && s.tickEnable

/-- TERM_END (R76, R116): the tick that was handed to the entry takes its event there, in which the term of the port's HELD
holding runs out; every holding of the entry is dealt with in that one event (R74). A holding renewed since the tick only
counts down (R90). notes/assumptions/4.md -/
def execTermEnd (e : EntryId) (p : Port) (s : State) : Host.Outcome State Fault Refusal :=
  .next (if s.tickWaits e && (s.entry e).holdingState p == some .held then s.tickEntry e else s)

/-- GRACE_END (R82, R116): the tick that was handed to the entry takes its event there, in which the grace of the port's
RECALLED holding runs out and the holding is revoked. notes/assumptions/4.md -/
def execGraceEnd (e : EntryId) (p : Port) (s : State) : Host.Outcome State Fault Refusal :=
  .next (if s.tickWaits e && (s.entry e).holdingState p == some .recalled then s.tickEntry e else s)

/-- ORPHAN_EXPIRY (R147, R116): the tick that was handed to an ORPHANED entry takes its event there, in which its orphan
counter runs out. notes/assumptions/4.md -/
def execOrphanExpiry (e : EntryId) (s : State) : Host.Outcome State Fault Refusal :=
  .next (if s.tickWaits e && (s.entry e).state == .orphaned then s.tickEntry e else s)

/-- A single-word write of HOLD_QUEUE by an OPEN port (R84). -/
def State.postItem (s : State) (p : Port) (w : Word) : State :=
  if (s.port p).holdQueue.length < 4 then
    (s.modPort p fun r => { r with holdQueue := r.holdQueue ++ [holdItemOf w] }).done p
  else s.answer p .retry

/-- A RELEASE item judged and applied (R85, R86). -/
def State.applyRelease (s : State) (p : Port) (h : Handle) : State :=
  if (s.entry h.entry).generation ≠ h.generation then s.offerFault p .staleHandle (.queued h)
  else
    match (s.entry h.entry).holdingState p with
    | none => s
    | some .awarded => s
    | some .held => s.removeHolding h.entry p
    | some .overdue => s.removeHolding h.entry p
    | some .recalled => s.removeHolding h.entry p

/-- A RENEW item judged and applied (R85, R87). -/
def State.applyRenew (s : State) (p : Port) (h : Handle) (term : BitVec 16) : State :=
  let fresh := s.modEntry h.entry fun x => x.modHolding p fun g => g.renew ((s.termsOf p).resolve term).1
  if (s.entry h.entry).generation ≠ h.generation then s.offerFault p .staleHandle (.queued h)
  else
    match (s.entry h.entry).holdingState p with
    | none => s.offerFault p .renewDenied (.queued h)
    | some .awarded => s.offerFault p .renewDenied (.queued h)
    | some .held => fresh
    | some .overdue => fresh
    | some .recalled => s.offerFault p .renewDenied (.queued h)

/-- The head item leaves the port's holding queue (R85). -/
def State.dropHead (s : State) (p : Port) : State := s.modPort p fun r => { r with holdQueue := r.holdQueue.tail }

/-- The item at the head of the port's holding queue is applied and leaves the queue (R85). -/
def State.applyHead (s : State) (p : Port) : State :=
  match (s.port p).holdQueue with
  | [] => s
  | i :: _ =>
    match i.kind with
    | .release => (s.applyRelease p i.handle).dropHead p
    | .renew => (s.applyRenew p i.handle i.term).dropHead p

/-- The kind of the item at the head of the port's holding queue. -/
def State.headKind (s : State) (p : Port) : Option ItemKind := (s.port p).holdQueue.head?.map HoldItem.kind

/-- RELEASE (R85, R86, R88): the RELEASE item at the head of the port's holding queue is applied. With no such item at the
head nothing happens. -/
def execRelease (p : Port) (s : State) : Host.Outcome State Fault Refusal :=
  .next (if s.headKind p == some .release then s.applyHead p else s)

/-- RENEW (R85, R87, R88): the RENEW item at the head of the port's holding queue is applied. With no such item at the head
nothing happens. -/
def execRenew (p : Port) (s : State) : Host.Outcome State Fault Refusal :=
  .next (if s.headKind p == some .renew then s.applyHead p else s)

end Sys2Proof.Machine
end

