-- ==== Sys2Proof/Machine/Clock.lean ====
section
/-! DEFINITION. The lease clock and the handing out of the lease tick (07_the_lease_clock.md). -/

namespace Sys2Proof.Machine

/-- The clock counts: the tick enable is on and NRESET is released (R114, R115). -/
def State.clockRuns (s : State) : Bool := !s.nreset && s.tickEnable

/-- All slots of the part, P0 S0 first. -/
def allClaims : List ClaimId := allPorts.flatMap fun p => allSlots.map fun k => ⟨p, k⟩

/-- The tick that waits at an entry, if one does, takes its event there. -/
def State.settleEntry (s : State) (e : EntryId) : State := if (s.entry e).tickDue then s.tickEntry e else s

/-- The tick that waits at a slot, if one does, takes its event there. -/
def State.settleSlot (s : State) (p : Port) (k : SlotNo) : State := if (s.slot p k).tickDue then s.tickSlot p k else s

/-- The ticks that wait at entries and slots all take their events, each in an event of its own (R116). -/
def State.settleTick (s : State) : State :=
  allClaims.foldl (fun s c => s.settleSlot c.port c.slot) (allEntries.foldl State.settleEntry s)

/-- A tick handed to an entry waits there if it ends something, and takes its event at once otherwise (R116;
notes/assumptions/4.md). -/
def State.handEntry (s : State) (e : EntryId) : State :=
  if !(s.entry e).counted then s
  else if (s.entry e).tickEnds then s.modEntry e fun x => { x with tickDue := true }
  else s.tickEntry e

/-- A tick handed to a slot, as `handEntry` (R64, R116). -/
def State.handSlot (s : State) (p : Port) (k : SlotNo) : State :=
  match s.slot p k with
  | .empty => s
  | .waiting _ => s
  | .denied _ _ => s
  | .granted d g =>
    if g.collect ≤ 1 then s.setSlot p k (.granted d { g with tickDue := true }) else s.tickSlot p k

/-- A lease tick handed to the lease table and the claim table (R116). -/
def State.handTick (s : State) : State :=
  allClaims.foldl (fun s c => s.handSlot c.port c.slot) (allEntries.foldl State.handEntry s)

/-- The tick stage's underflow: its counter is reloaded, LEASE_TIME rises by one, and the tick is handed out (R112, R116,
R117). No part of it is handed out while a part of an earlier tick waits: every event of the earlier one is taken first, so
that a counter that such an event loads is lowered by this tick (R116; notes/assumptions/5.md). -/
def State.tickUnderflow (s : State) : State :=
  let t := s.settleTick
  ({ t with tickCounter := t.tickDiv, tickDue := false, leaseTime := t.leaseTime + 1 } : State).handTick

/-- One pulse reaches the tick stage (R112). At zero its underflow is left to LEASE_TICK; one left by an earlier pulse comes
first (notes/assumptions/3.md). -/
def State.pulse (s : State) : State :=
  let t := if s.tickDue then s.tickUnderflow else s
  if t.tickCounter = 0 then { t with tickDue := true } else { t with tickCounter := t.tickCounter - 1 }

/-- The prescale stage's counter is reloaded from PRESCALE_DIV (R112, R113). -/
def State.reloadPrescale (s : State) : State := { s with prescaleCounter := s.prescaleDiv }

/-- PRESCALE_UNDERFLOW (R112, R113): the prescale counter underflows, is reloaded from PRESCALE_DIV, and sends one pulse to
the tick stage. The command stands for the cycles of SYSCLK up to and with the underflow, so it asks nothing of the counter
(notes/assumptions/3.md). -/
def State.prescaleUnderflow (s : State) : State := if s.clockRuns then s.pulse.reloadPrescale else s

def execPrescaleUnderflow (s : State) : Host.Outcome State Fault Refusal := .next s.prescaleUnderflow

/-- LEASE_TICK (R112, R116, R117): the tick stage underflows and reloads, LEASE_TIME rises, and the tick is handed out. If
no underflow is due yet the command stands for the cycles of SYSCLK up to and with it, at whose end the prescale counter has
just been reloaded too (notes/assumptions/3.md). -/
def State.leaseTick (s : State) : State :=
  if !s.clockRuns then s
  else if s.tickDue then s.tickUnderflow
  else s.tickUnderflow.reloadPrescale

def execLeaseTick (s : State) : Host.Outcome State Fault Refusal := .next s.leaseTick

/-- One cycle of SYSCLK (R112), which is what the block does when no command waits (notes/assumptions/2.md). A lease tick
that it produces is taken whole; an underflow that is still due is taken before it (notes/assumptions/3.md). -/
def State.clockCycle (s : State) : State :=
  if !s.clockRuns then s
  else if s.prescaleCounter ≠ 0 then { s with prescaleCounter := s.prescaleCounter - 1 }
  else
    let t := if s.tickDue then s.leaseTick else s
    if t.tickCounter = 0 then t.leaseTick.settleTick else t.prescaleUnderflow

end Sys2Proof.Machine
end

