-- ==== Sys2Proof/Machine/Pool.lean ====
section
/-! DEFINITION. Guarded access to the pool: judgment of bursts, write buffers, reads, and the pool memory port
(06_guarded_access_to_the_pool.md, R168). -/

namespace Sys2Proof.Machine

/-! ## The access check (R96 to R98) -/

/-- The pool byte address of a pool word address. -/
def byteAddr (a : BitVec 22) : Nat := 4 * a.toNat

/-- The page of a pool word address (R94). -/
def pageOf (a : BitVec 22) : Nat := byteAddr a / 1024

/-- Steps 2 to 5 of Table 23, for a burst of `n` words: the entry it is accepted under, or the refusal (R96 to R98). -/
def State.judgeBurst (s : State) (p : Port) (a : BitVec 22) (n : Nat) (write : Bool) : Except RefusalCode EntryId :=
  if s.poolPages.toNat * 1024 ≤ byteAddr a then .error .outOfPool
  else if 1024 < byteAddr a % 1024 + 4 * n then .error .align
  else
    match s.covering p (pageOf a) with
    | none => .error .notHeld
    | some e =>
      match (s.entry e).holdingState p with
      | none => .error .notHeld
      | some .awarded => .error .notHeld
      | some _ => if write && (s.entry e).mode == .shared then .error .mode else .ok e

/-- A burst is accepted: the in-flight count of its entry rises by one (R99). -/
def State.raiseInFlight (s : State) (e : EntryId) : State := s.modEntry e fun x => { x with inFlight := x.inFlight + 1 }

/-- A pool write that the port interface has taken (R96, R99, R101, R121). -/
def State.takeWrite (s : State) (p : Port) (a : BitVec 22) (be : BitVec 4) (ws : List Word) : State :=
  if (s.port p).state ≠ .opened then s.refuseClosed p
  else if 2 ≤ (s.port p).writeBuffer.length then s.answer p .retry
  else
    match s.judgeBurst p a ws.length true with
    | .error c => s.refuse p c (.write (poolAddr a))
    | .ok e =>
      ((s.raiseInFlight e).modPort p fun r =>
        { r with writeBuffer := r.writeBuffer ++ [{ addr := a, enables := be, words := ws, entry := e }] }).done p

/-- POOL_WRITE (R94, R96 to R99, R101). A list of words that no host can present is refused as malformed. -/
def execPoolWrite (p : Port) (a : BitVec 22) (be : BitVec 4) (ws : List Word) (s : State) : Host.Outcome State Fault Refusal :=
  if 1 ≤ ws.length ∧ ws.length ≤ 16 then .next (s.transact p fun s => s.takeWrite p a be ws) else .refused .malformed

/-- The answer to a port's read is driven, unless the port is closing by its reset line (R123, R131). -/
def State.drives (s : State) (p : Port) : Bool :=
  match (s.port p).state with
  | .closed => true
  | .opened => true
  | .closing .command _ => true
  | .closing .line _ => false

/-- A read ends with this answer, which is driven or not; the port has no read then (R104, R131). -/
def State.endRead (s : State) (p : Port) (a : Answer) : State :=
  s.modPort p fun r => { r with read := none, answer := if s.drives p then a else .none }

/-- A read ends in a refusal, offered to the fault record (R96, R109, R131). -/
def State.refuseRead (s : State) (p : Port) (a : BitVec 22) (c : RefusalCode) : State :=
  (s.offerFault p c (.read (poolAddr a))).endRead p (.refuse c)

/-- The judgment of a read from the second step of Table 23 on (R96, R98, R99, R103). -/
def State.judgeRead (s : State) (p : Port) (a : BitVec 22) (be len : BitVec 4) : State :=
  match s.judgeBurst p a (len.toNat + 1) false with
  | .error c => s.refuseRead p a c
  | .ok e =>
    (s.raiseInFlight e).modPort p fun r =>
      { r with read := some { addr := a, enables := be, len := len, stage := .accepted e } }

/-- A pool read that the port interface has taken: held while the write buffer is not empty, and judged otherwise. Until it
is answered the answer lines carry no answer (R95, R96, R103). -/
def State.takeRead (s : State) (p : Port) (a : BitVec 22) (be len : BitVec 4) : State :=
  if (s.port p).state ≠ .opened then s.refuseClosed p
  else
    let t := s.answer p .none
    if (s.port p).writeBuffer.isEmpty then t.judgeRead p a be len
    else t.modPort p fun r => { r with read := some { addr := a, enables := be, len := len, stage := .held } }

/-- POOL_READ (R94 to R99, R103). -/
def execPoolRead (p : Port) (a : BitVec 22) (be len : BitVec 4) (s : State) : Host.Outcome State Fault Refusal :=
  .next (s.transact p fun s => s.takeRead p a be len)

/-- HELD_READ_JUDGE (R103, R131): the port's held read is judged once its write buffer is empty. With no held read, or a
buffer that is not empty, nothing happens. -/
def execHeldReadJudge (p : Port) (s : State) : Host.Outcome State Fault Refusal :=
  .next
    (match (s.port p).read with
     | none => s
     | some r =>
       match r.stage with
       | .accepted _ => s
       | .held => if (s.port p).writeBuffer.isEmpty then s.judgeRead p r.addr r.enables r.len else s)

/-! ## The pool memory port (R105, R106, R168) -/

/-- The burst a port offers to the memory port: the head of its write buffer, or its accepted read (R105). -/
def State.offered (s : State) (p : Port) : Option ActiveBurst :=
  match (s.port p).writeBuffer with
  | w :: _ =>
    some { port := p, kind := .write w.words, addr := w.addr, enables := w.enables, entry := w.entry, done := 0, got := [],
           parityError := false }
  | [] =>
    match (s.port p).read with
    | none => none
    | some r =>
      match r.stage with
      | .held => none
      | .accepted e =>
        some { port := p, kind := .read r.len, addr := r.addr, enables := r.enables, entry := e, done := 0, got := [],
               parityError := false }

/-- The ports in rotation order, from the one the pointer names (R105). -/
def State.rotation (s : State) : List Port := [s.pointer, s.pointer + 1, s.pointer + 2, s.pointer + 3]

/-- The arbiter starts one burst, if the memory port is free and one is offered (R105). -/
def State.startBurst (s : State) : State :=
  if s.memPort.isSome then s
  else
    match s.rotation.findSome? s.offered with
    | none => s
    | some b => { s with memPort := some b, pointer := b.port + 1 }

/-- BURST_START (R105). -/
def execBurstStart (s : State) : Host.Outcome State Fault Refusal := .next s.startBurst

/-- The lanes of a word, lane 0 first (R94). -/
def lanes : List (Fin 4) := List.finRange 4

/-- The byte of a word in a lane. R94 says which byte address a lane has, and no rule which bits of the word it is: that lane `i`
is bits `8i+7` to `8i` is a DESIGN CHOICE (unsafe, notes/assumptions/31.md). -/
def laneByte (w : Word) (i : Fin 4) : Byte := w.extractLsb' (8 * i.val) 8

/-- The parity bit that makes the nine bits hold an odd number of ones (R108). -/
def parityBit (b : Byte) : Bool := !(b.getLsbD 0 ^^ b.getLsbD 1 ^^ b.getLsbD 2 ^^ b.getLsbD 3 ^^ b.getLsbD 4 ^^ b.getLsbD 5 ^^
  b.getLsbD 6 ^^ b.getLsbD 7)

/-- A word written to the SRAM at a pool byte address, in the enabled lanes, each with its parity (R102, R108). -/
def State.writeWord (s : State) (base : Nat) (be : BitVec 4) (w : Word) : State :=
  lanes.foldl
    (fun s i => if be.getLsbD i.val then s.setLane (base + i.val) (laneByte w i) (parityBit (laneByte w i)) else s) s

/-- The data of a lane as the memory returns it (R104, R168). -/
def State.returnedByte (s : State) (m : MemAnswer) (base : Nat) (i : Fin 4) : Byte :=
  match m with
  | .sram => s.poolByte (base + i.val)
  | .lines d _ => laneByte d i

/-- The parity bit of a lane as the memory returns it (R104, R168). On the lines, that the parity of lane `i` is bit `i` is a
DESIGN CHOICE (unsafe, notes/assumptions/31.md). -/
def State.returnedParity (s : State) (m : MemAnswer) (base : Nat) (i : Fin 4) : Bool :=
  match m with
  | .sram => s.poolParityAt (base + i.val)
  | .lines _ q => q.getLsbD i.val

/-- The word a read takes from the memory: the enabled lanes as read, the others zero (R104), each lane at the bits that
`laneByte` gives it (DESIGN CHOICE, unsafe, notes/assumptions/31.md). -/
def State.readWord (s : State) (m : MemAnswer) (base : Nat) (be : BitVec 4) : Word :=
  lanes.foldl (fun w i => if be.getLsbD i.val then w ||| place (s.returnedByte m base i) (8 * i.val) else w) 0

/-- Some enabled byte of the word fails its parity check (R109). -/
def State.parityFails (s : State) (m : MemAnswer) (base : Nat) (be : BitVec 4) : Bool :=
  lanes.any fun i => be.getLsbD i.val && (s.returnedParity m base i != parityBit (s.returnedByte m base i))

/-- The number of words of a burst. -/
def ActiveBurst.length (b : ActiveBurst) : Nat :=
  match b.kind with
  | .write ws => ws.length
  | .read len => len.toNat + 1

/-- The pool word address of the word under way (R106, R168). -/
def ActiveBurst.wordAddr (b : ActiveBurst) : BitVec 22 := b.addr + BitVec.ofNat 22 b.done

/-- The effect of one word access: a write stores its word, a read takes what the memory returns (R102, R104, R109). -/
def State.endWord (s : State) (b : ActiveBurst) (m : MemAnswer) : State × ActiveBurst :=
  let base := byteAddr b.wordAddr
  match b.kind with
  | .write ws =>
    (match ws[b.done]? with
     | none => s
     | some w => s.writeWord base b.enables w,
     { b with done := b.done + 1 })
  | .read _ =>
    (s, { b with done := b.done + 1, got := b.got ++ [s.readWord m base b.enables],
                 parityError := b.parityError || s.parityFails m base b.enables })

/-- A burst finishes: the memory port is free, the count of its entry falls, a write leaves its buffer, and a read is
answered with its words or refused with POOL_PARITY (R104, R106, R109). -/
def State.endBurst (s : State) (b : ActiveBurst) : State :=
  let t := ({ s with memPort := none } : State).lowerInFlight b.entry
  match b.kind with
  | .write _ => t.modPort b.port fun r => { r with writeBuffer := r.writeBuffer.tail }
  | .read _ => if b.parityError then t.refuseRead b.port b.addr .poolParity else t.endRead b.port (.done b.got)

/-- Ready is reported for the word access under way; with none under way nothing happens (R168). -/
def State.wordReady (s : State) (m : MemAnswer) : State :=
  match s.memPort with
  | none => s
  | some b =>
    let (t, c) := s.endWord b m
    if c.done < c.length then { t with memPort := some c } else t.endBurst c

/-- POOL_WORD_READY (R102, R104, R106, R109, R168). -/
def execPoolWordReady (m : MemAnswer) (s : State) : Host.Outcome State Fault Refusal := .next (s.wordReady m)

/-! ## Part reset (R110) -/

/-- A lane of a torn word: left unwritten, written, or holding data and parity that do not agree; which is a free value
(R110; notes/assumptions/13.md). -/
def State.tearLane (s : State) (draw a : Nat) (b : Byte) : State :=
  let v := Config.tornLane draw a
  if v.extractLsb' 8 2 = 0 then s
  else if v.extractLsb' 8 2 = 1 then s.setLane a b (parityBit b)
  else s.setLane a (v.extractLsb' 0 8) (!parityBit (v.extractLsb' 0 8))

/-- What becomes of the word under way of a write that part reset cuts short: a free value among the outcomes R110 names
(notes/assumptions/13.md). Lanes whose enables are clear are left as they were (R102). -/
def State.tearWord (s : State) (base : Nat) (be : BitVec 4) (w : Word) : State :=
  let t : State := { s with freeDraws := s.freeDraws + 1 }
  if Config.cutWord s.freeDraws = 0 then t
  else if Config.cutWord s.freeDraws = 1 then t.writeWord base be w
  else lanes.foldl (fun t i => if be.getLsbD i.val then t.tearLane s.freeDraws (base + i.val) (laneByte w i) else t) t

/-- The pool memory after part reset: only the word under way of a write can have changed (R110). -/
def State.cutShort (s : State) : State :=
  match s.memPort with
  | none => s
  | some b =>
    match b.kind with
    | .read _ => s
    | .write ws =>
      match ws[b.done]? with
      | none => s
      | some w => s.tearWord (byteAddr b.wordAddr) b.enables w

end Sys2Proof.Machine
end

