-- ==== Sys2Proof/Machine/Ports.lean ====
section
/-! DEFINITION. Opening and closing ports, the close procedure and part reset (08_opening_and_closing_ports.md). -/

namespace Sys2Proof.Machine

/-! ## Part reset (R135) -/

/-- A port after part reset: everything cleared, the level of its line kept, and P0 OPEN if NRESET and its line are released
(R126, R135, Table 31). -/
def PortRec.afterReset (r : PortRec) (p : Port) (nreset : Bool) : PortRec :=
  { PortRec.cleared with
      lineHeld := r.lineHeld
      state := if p = 0 ∧ nreset = false ∧ r.lineHeld = false then .opened else .closed }

/-- Part reset: every block takes the values its rules give (R23, R39, R58, R93, R110, R115, R118, R135, R137). What is not
the part's stays: the levels of NRESET and of the lines, the pool contents but for a word cut short, and the commands that
wait. -/
def State.partReset (s : State) : State :=
  let t := s.cutShort
  { State.reset with
      nreset := s.nreset
      ports := Vector.ofFn fun p => (s.port p).afterReset p s.nreset
      poolData := t.poolData
      poolParity := t.poolParity
      freeDraws := t.freeDraws
      pending := s.pending }

/-- NRESET (R135): the pin is asserted, which causes part reset; while it stays asserted every port is CLOSED. -/
def execNreset (s : State) : Host.Outcome State Fault Refusal := .next ({ s with nreset := true } : State).partReset

/-- P0 opens by itself if it is CLOSED with NRESET and its line released (R126). -/
def State.reopen (s : State) : State :=
  if (s.port 0).state = .closed ∧ s.nreset = false ∧ (s.port 0).lineHeld = false then
    s.modPort 0 fun r => { r with state := .opened }
  else s

/-- NRESET_RELEASE (R126, R135): part reset ends, and P0 opens if its line is released. -/
def execNresetRelease (s : State) : Host.Outcome State Fault Refusal := .next ({ s with nreset := false } : State).reopen

/-! ## The reset line (R123) -/

/-- The port begins its close procedure. The first stage is taken in the same event and ends in it: no transaction of the
port is under way but a read that is accepted or held, so the second stage is under way at its end (R127;
notes/assumptions/8.md). -/
def State.startClose (s : State) (p : Port) (cause : CloseCause) : State :=
  s.modPort p fun r => { r with state := .closing cause .second }

/-- PORT_RESET_LINE_ASSERT (R123, R127): no answer is driven from here on, an OPEN port begins to close with cause LINE, and
a CLOSING one takes that cause. While NRESET is asserted the line has its level alone (R135). -/
def execPortResetLineAssert (p : Port) (s : State) : Host.Outcome State Fault Refusal :=
  let t := s.modPort p fun r => { r with lineHeld := true, answer := .none }
  .next
    (match (s.port p).state with
     | .closed => t
     | .opened => t.startClose p .line
     | .closing _ st => t.modPort p fun r => { r with state := .closing .line st })

/-- PORT_RESET_LINE_RELEASE (R123, R126): the port takes transactions again, and P0 opens if it is CLOSED. -/
def execPortResetLineRelease (p : Port) (s : State) : Host.Outcome State Fault Refusal :=
  let t := s.modPort p fun r => { r with lineHeld := false }
  .next (if p = 0 then t.reopen else t)

/-! ## The close procedure (R127 to R132) -/

/-- The stage of the close procedure under way at the port. -/
def State.closeStage (s : State) (p : Port) : Option CloseStage :=
  match (s.port p).state with
  | .closed => none
  | .opened => none
  | .closing _ st => some st

/-- The next stage begins. -/
def State.enterStage (s : State) (p : Port) (st : CloseStage) : State :=
  s.modPort p fun r =>
    { r with state := match r.state with
        | .closed => .closed
        | .opened => .opened
        | .closing c _ => .closing c st }

/-- The port's holding queue applied to empty, from its head (R128). -/
def State.applyQueue (s : State) (p : Port) : State := (s.port p).holdQueue.foldl (fun s _ => s.applyHead p) s

/-- CLOSE_SECOND_STAGE (R128). -/
def execCloseSecondStage (p : Port) (s : State) : Host.Outcome State Fault Refusal :=
  .next (if s.closeStage p == some .second then (s.applyQueue p).enterStage p .third else s)

/-- One slot of a closing port dealt with (R40). -/
def State.vacateSlot (s : State) (p : Port) (k : SlotNo) : State :=
  match s.slot p k with
  | .empty => s
  | .waiting d => s.withdraw p k d
  | .granted _ g => s.giveBack p k g
  | .denied _ _ => s.setSlot p k .empty

/-- CLOSE_THIRD_STAGE (R40, R128). -/
def execCloseThirdStage (p : Port) (s : State) : Host.Outcome State Fault Refusal :=
  .next
    (if s.closeStage p == some .third then
       (allSlots.foldl (fun s k => s.vacateSlot p k) s).enterStage p .fourth
     else s)

/-- One entry in which a closing port has a holding dealt with (R129, R130, Table 30). -/
def State.vacateEntry (s : State) (p : Port) (e : EntryId) : State :=
  match (s.entry e).holdingState p with
  | none => s
  | some st =>
    if (s.entry e).mode = .exclusive ∧ (st = .held ∨ st = .overdue) then s.makeOrphan e p else s.removeHolding e p

/-- CLOSE_FOURTH_STAGE (R129 to R131): the fifth stage is under way at its end. -/
def execCloseFourthStage (p : Port) (s : State) : Host.Outcome State Fault Refusal :=
  .next
    (if s.closeStage p == some .fourth then
       (allEntries.foldl (fun s e => s.vacateEntry p e) s).enterStage p .fifth
     else s)

/-- The fifth stage has ended: the write buffer is empty and no read of the port remains (R131). -/
def State.drained (s : State) (p : Port) : Bool := (s.port p).writeBuffer.isEmpty && (s.port p).read.isNone

/-- A port as it becomes CLOSED (R132). -/
def PortRec.shut (r : PortRec) : PortRec :=
  { r with state := .closed, noticesPending := 0, noticesEnabled := 0, fault := none, view := none,
           staging := Vector.replicate 4 ⟨0, 0⟩ }

/-- The command engine waits for this port to close (R125, R132). -/
def Command.closes (c : Command) (p : Port) : Bool := c.code == Cmd.closePort && argPort c.arg == p

/-- The sixth stage: the port becomes CLOSED, a CLOSE_PORT that waits for it completes, and P0 opens again if its line is
released (R126, R132, R150). -/
def State.shutPort (s : State) (p : Port) : State :=
  let t := s.modPort p PortRec.shut
  let u := match s.engine with
    | none => t
    | some c => if c.closes p then t.complete c.code .ok else t
  if p = 0 then ({ u with supView := none } : State).reopen else u

/-- CLOSE_SIXTH_STAGE (R131, R132). Before the fifth stage has ended nothing happens. -/
def execCloseSixthStage (p : Port) (s : State) : Host.Outcome State Fault Refusal :=
  .next (if s.closeStage p == some .fifth && s.drained p then s.shutPort p else s)

end Sys2Proof.Machine
end

