-- ==== Sys2Proof/Machine/Supervision.lean ====
section
/-! DEFINITION. The command engine's commands, and the two lease views (09_supervision.md, 01_leases_and_the_lease_table.md).
Each action below is taken with the engine BUSY with its command, whose operands are `arg` (R137, R138). -/

namespace Sys2Proof.Machine

/-! ## Port commands (R124, R125, R140) -/

/-- OPEN_PORT (R124, R140). -/
def State.cmdOpenPort (s : State) (arg : Word) : State :=
  if argPort arg = 0 then s.complete Cmd.openPort .badPort
  else if (s.port (argPort arg)).state ≠ .closed ∨ (s.port (argPort arg)).lineHeld = true then
    s.complete Cmd.openPort .portState
  else (s.modPort (argPort arg) fun r => { r with state := .opened }).complete Cmd.openPort .ok

/-- CLOSE_PORT (R125, R140): the engine stays BUSY until the port is CLOSED. -/
def State.cmdClosePort (s : State) (arg : Word) : State :=
  if argPort arg = 0 then s.complete Cmd.closePort .badPort
  else if (s.port (argPort arg)).state ≠ .opened then s.complete Cmd.closePort .portState
  else s.startClose (argPort arg) .command

/-! ## Lease commands (R141 to R146) -/

/-- The handle is current (R9). -/
def State.current (s : State) (h : Handle) : Bool := (s.entry h.entry).generation == h.generation

/-- RECALL_LEASE (R141). -/
def State.cmdRecall (s : State) (arg : Word) : State :=
  let h := handleOf arg
  if !s.current h then s.complete Cmd.recallLease .staleHandle
  else if (s.entry h.entry).state ≠ .live then s.complete Cmd.recallLease .leaseState
  else (s.forceRecall h.entry).complete Cmd.recallLease .ok

/-- The slots whose grants name the entry are emptied, each with its port's LAPSE notice (R68, R142). -/
def State.emptyGrants (s : State) (e : EntryId) : State :=
  allClaims.foldl
    (fun s c =>
      match s.slot c.port c.slot with
      | .empty => s
      | .waiting _ => s
      | .denied _ _ => s
      | .granted _ g => if g.handle.entry = e then (s.setSlot c.port c.slot .empty).setNotice c.port .lapse else s) s

/-- REVOKE_LEASE (R142, R143): every holding is removed, with REVOKE at the ports of collected ones and LAPSE at those of
AWARDED ones; the command completes when the entry is FREE. -/
def State.cmdRevoke (s : State) (arg : Word) : State :=
  let h := handleOf arg
  let x := s.entry h.entry
  if !s.current h then s.complete Cmd.revokeLease .staleHandle
  else if x.state ≠ .live then s.complete Cmd.revokeLease .leaseState
  else
    (((s.noticeAll ((x.holdings.filter Holding.collected).map Holding.port) .revoke).emptyGrants h.entry).modEntry h.entry
      fun x => { x with holdings := [], orphan := none }).leave h.entry

/-- The lowest-numbered EMPTY slot of a port (R145). -/
def State.lowestEmpty (s : State) (p : Port) : Option SlotNo := allSlots.find? fun k => s.slot p k == .empty

/-- An orphan handed to a port: the entry becomes LIVE with an AWARDED holding, and the slot GRANTED with kind ADOPTED
(R145). -/
def State.adopt (s : State) (h : Handle) (p : Port) (k : SlotNo) : State :=
  let (term, clamped) := (s.termsOf p).resolve 0
  let d : Descriptor := { range := (s.entry h.entry).range, mode := .exclusive, noWait := false, term := 0 }
  let g : Grant :=
    { handle := h, kind := .adopted, term := term, clamped := clamped, collect := s.collectTicks, tickDue := false }
  (((s.modEntry h.entry fun x => { x with state := .live, holdings := [Holding.award p term] }).setSlot p k
    (.granted d g)).setNotice p .grant).complete Cmd.adoptLease .ok

/-- ADOPT_LEASE (R144, R145). -/
def State.cmdAdopt (s : State) (arg : Word) : State :=
  let h := handleOf arg
  let p := argPort arg
  let x := s.entry h.entry
  if !s.current h then s.complete Cmd.adoptLease .staleHandle
  else if x.state ≠ .orphaned ∨ x.inFlight ≠ 0 then s.complete Cmd.adoptLease .leaseState
  else if (s.port p).state ≠ .opened then s.complete Cmd.adoptLease .portState
  else
    match s.lowestEmpty p with
    | none => s.complete Cmd.adoptLease .noSlot
    | some k => if s.overlapsOwn p x.range then s.complete Cmd.adoptLease .overlap else s.adopt h p k

/-- RETIRE_LEASE (R146): the command completes when the entry is FREE. -/
def State.cmdRetire (s : State) (arg : Word) : State :=
  let h := handleOf arg
  if !s.current h then s.complete Cmd.retireLease .staleHandle
  else if (s.entry h.entry).state ≠ .orphaned then s.complete Cmd.retireLease .leaseState
  else s.leave h.entry

/-! ## The pool size and the part (R148, R149) -/

/-- Some lease entry is not FREE, or some claim slot is not EMPTY (R148). -/
def State.inUse (s : State) : Bool :=
  (allEntries.any fun e => (s.entry e).state != .free) || (allClaims.any fun c => s.slot c.port c.slot != .empty)

/-- SET_POOL (R148). -/
def State.cmdSetPool (s : State) (arg : Word) : State :=
  if argValue arg = 0 ∨ 16384 < argValue arg then s.complete Cmd.setPool .badValue
  else if s.inUse then s.complete Cmd.setPool .inUse
  else ({ s with poolPages := argValue arg } : State).complete Cmd.setPool .ok

/-- PART_RESET (R149): it never completes. -/
def State.cmdPartReset (s : State) : State := s.partReset

/-- A code that names no command completes at once with BAD_VALUE (R138). -/
def State.cmdUnknown (s : State) (code : BitVec 4) : State := s.complete code .badValue

/-- The action of a command code (R138, Table 48). -/
def State.runCommand (s : State) (code : BitVec 4) (arg : Word) : State :=
  if code = Cmd.openPort then s.cmdOpenPort arg
  else if code = Cmd.closePort then s.cmdClosePort arg
  else if code = Cmd.recallLease then s.cmdRecall arg
  else if code = Cmd.revokeLease then s.cmdRevoke arg
  else if code = Cmd.adoptLease then s.cmdAdopt arg
  else if code = Cmd.retireLease then s.cmdRetire arg
  else if code = Cmd.setPool then s.cmdSetPool arg
  else if code = Cmd.partReset then s.cmdPartReset
  else s.cmdUnknown code

/-- A single-word write of COMMAND by P0 while OPEN: refused while the engine is BUSY, and otherwise accepted, with CMD_ARG
copied, acted on, and answered DONE after the first action (R138). -/
def State.startCommand (s : State) (p : Port) (code : BitVec 4) (place : FaultPlace) (act : State → Word → State) : State :=
  match s.engine with
  | some _ => s.refuse p .commandBusy place
  | none => (act { s with engine := some ⟨code, s.cmdArg⟩ } s.cmdArg).done p

/-! ## Lease views (R20, R150) -/

/-- The items every view shows of an entry; a FREE entry shows SHARED, base 0 and count 0 (R19, Table 7). -/
def State.itemsOf (s : State) (e : EntryId) : EntryItems :=
  let x := s.entry e
  { index := e, state := x.state, generation := x.generation
    mode := if x.state = .free then .shared else x.mode
    range := if x.state = .free then ⟨0, 0⟩ else x.range
    nHoldings := x.holdings.length, inFlight := x.inFlight, contested := x.contested }

/-- A write of VIEW_INDEX: the snapshot replaces the port's previous one whole (R20). -/
def State.takeView (s : State) (p : Port) (w : Word) : State :=
  let e := viewIndexOf w
  (s.modPort p fun r => { r with view := some { items := s.itemsOf e, own := (s.entry e).holdingOf p } }).done p

/-- A write of SUP_VIEW_INDEX by P0 (R150). -/
def State.takeSupView (s : State) (p : Port) (w : Word) : State :=
  let e := viewIndexOf w
  ({ s with supView := some { items := s.itemsOf e, holdings := (s.entry e).holdings, orphan := (s.entry e).orphan } }
    : State).done p

end Sys2Proof.Machine
end

