-- ==== Sys2Proof/Machine/Windows.lean ====
section
/-! DEFINITION. Transactions in the control and supervisor windows: the judgments of R161, the words read and written, and
the meaning of every row that is such a transaction. -/

namespace Sys2Proof.Machine

/-! ## The judgments of R161 -/

/-- Steps 1 to 5 of Table 41: the word the transaction reaches, or the refusal (R121, R136, R161). -/
def State.judgeAccess (s : State) (p : Port) (len : BitVec 4) (a : BitVec 22) (write : Bool) : Except RefusalCode Reg :=
  let statusRead := !write && len == 0 && a == Reg.portStatus.addr
  if (s.port p).state ≠ .opened ∧ statusRead = false then .error .portClosed
  else if p ≠ 0 ∧ inSupervisorWindow a = true then .error .supervisorOnly
  else if len ≠ 0 then .error .align
  else
    match rowAt a with
    | none => .error .unmapped
    | some r => if (if write then r.writable else r.readable) then .ok r.reg else .error .unmapped

/-- A window transaction: judged, and then given to the word it names (R159, R161). -/
def State.access (s : State) (p : Port) (len : BitVec 4) (a : BitVec 22) (write : Bool) (own : Reg → State → State) : State :=
  s.transact p fun s =>
    match s.judgeAccess p len a write with
    | .error .portClosed => s.refuseClosed p
    | .error c => s.refuse p c (.control (windowAddr a))
    | .ok r => own r s

/-- The place a fault of a window transaction is recorded with (R157). -/
def controlPlace (a : BitVec 22) : FaultPlace := .control (windowAddr a)

/-! ## Words written -/

/-- A write of 0 to a value that runs from 1 is taken as a write of 1 (R118). -/
def atLeastOne {n : Nat} (x : BitVec n) : BitVec n := if x = 0 then 1 else x

def State.writeStaging (s : State) (p : Port) (k : SlotNo) (w : Word) : State :=
  (s.modPort p fun r => { r with staging := r.staging.put k (stagingOf w) }).done p

def State.writeCmdArg (s : State) (p : Port) (w : Word) : State := ({ s with cmdArg := cmdArgOf w } : State).done p

def State.writeCollectTicks (s : State) (p : Port) (w : Word) : State :=
  ({ s with collectTicks := atLeastOne (field w 0 8) } : State).done p

def State.writeGraceTicks (s : State) (p : Port) (w : Word) : State :=
  ({ s with graceTicks := atLeastOne (field w 0 8) } : State).done p

def State.writeOrphanTicks (s : State) (p : Port) (w : Word) : State :=
  ({ s with orphanTicks := field w 0 16 } : State).done p

def State.writePrescaleDiv (s : State) (p : Port) (w : Word) : State :=
  ({ s with prescaleDiv := field w 0 8 } : State).done p

def State.writeTickDiv (s : State) (p : Port) (w : Word) : State := ({ s with tickDiv := field w 0 16 } : State).done p

/-- A write of TICK_ENABLE stops both stages where they stand, or lets them go on (R114). -/
def State.writeTickEnable (s : State) (p : Port) (w : Word) : State :=
  ({ s with tickEnable := w.getLsbD 0 } : State).done p

def State.writeDefaultTerm (s : State) (p n : Port) (w : Word) : State :=
  ({ s with terms := s.terms.put n { s.termsOf n with default := atLeastOne (field w 0 16) } } : State).done p

def State.writeTermCap (s : State) (p n : Port) (w : Word) : State :=
  ({ s with terms := s.terms.put n { s.termsOf n with cap := atLeastOne (field w 0 16) } } : State).done p

/-- The code of a write of COMMAND: bits 3:0 (R167). -/
def commandCode (w : Word) : BitVec 4 := field w 0 4

/-- What a write that passed the judgments does to the word it names. Words that permit no write are not reached (R161). -/
def State.writeReg (s : State) (p : Port) (a : BitVec 22) (w : Word) (r : Reg) : State :=
  match r with
  | .noticePending => s.acknowledge p w
  | .noticeEnable => s.setEnables p w
  | .faultClear => s.clearFault p
  | .holdQueue => s.postItem p w
  | .viewIndex => s.takeView p w
  | .slotDescA k => s.writeStaging p k w
  | .slotDescB k => s.sendClaim p k w (controlPlace a)
  | .slotCancel k => s.cancelSlot p k (controlPlace a)
  | .command => s.startCommand p (commandCode w) (controlPlace a) fun s arg => s.runCommand (commandCode w) arg
  | .cmdArg => s.writeCmdArg p w
  | .supViewIndex => s.takeSupView p w
  | .collectTicks => s.writeCollectTicks p w
  | .graceTicks => s.writeGraceTicks p w
  | .orphanTicks => s.writeOrphanTicks p w
  | .prescaleDiv => s.writePrescaleDiv p w
  | .tickDiv => s.writeTickDiv p w
  | .tickEnable => s.writeTickEnable p w
  | .defaultTerm n => s.writeDefaultTerm p n w
  | .termCap n => s.writeTermCap p n w
  | .portStatus | .leaseTime | .faultRecord | .faultWhere | .view _ | .slotStatus _ | .slotCollect _ | .cmdResult | .portStates
  | .sview0 | .sview1 | .sviewOrphan | .sviewHoldA _ | .sviewHoldB _ | .poolPages => s.refuse p .unmapped (controlPlace a)

/-! ## Words read -/

/-- PORT_STATES: the status byte of port n in bits 8n+7 to 8n (R151, R167). -/
def State.portStatesWord (s : State) : Word :=
  place (s.port 0).statusByte 0 ||| place (s.port 1).statusByte 8 ||| place (s.port 2).statusByte 16
    ||| place (s.port 3).statusByte 24

/-- The number of items in the port's holding queue (R84). -/
def State.holdCountWord (s : State) (p : Port) : Word := place (BitVec.ofNat 3 (s.port p).holdQueue.length) 0

/-- The index of a snapshot; without one it reads 0 (R21, R150). -/
def indexWord (i : Option EntryItems) : Word := (i.map fun i => place (entryBits i.index) 0).getD 0

/-- Holding place `h` of the supervisor view; an unused place reads as zero (R150). -/
def supHolding (v : Option SupView) (h : Fin 4) : Option Holding := v.bind fun v => v.holdings[h.val]?

/-- The value of a word that a read does not change. SLOT_COLLECT's reads have their own effect, and the words that permit no
read are not reached (R161). -/
def State.regWord (s : State) (p : Port) (r : Reg) : Word :=
  match r with
  | .portStatus => place (s.port p).statusByte 0
  | .leaseTime => place s.leaseTime 0
  | .noticePending => place ((s.port p).noticesPending &&& noticeKinds p) 0
  | .noticeEnable => place ((s.port p).noticesEnabled &&& noticeKinds p) 0
  | .faultRecord => faultWord (s.port p).fault
  | .faultWhere => faultWhereWord (s.port p).fault
  | .holdQueue => s.holdCountWord p
  | .viewIndex => indexWord ((s.port p).view.map LeaseView.items)
  | .view i => viewWord (s.port p).view i
  | .slotDescA k => ((s.port p).staging.look k).word
  | .slotDescB k => (s.slot p k).descBWord
  | .slotStatus k => (s.slot p k).statusWord (s.ahead ⟨p, k⟩)
  | .cmdArg => s.cmdArg
  | .cmdResult => cmdResultWord s.engine.isSome s.result
  | .portStates => s.portStatesWord
  | .supViewIndex => indexWord (s.supView.map SupView.items)
  | .sview0 => (s.supView.map fun v => v.items.word0).getD 0
  | .sview1 => (s.supView.map fun v => v.items.range.word).getD 0
  | .sviewOrphan => ((s.supView.bind SupView.orphan).map OrphanRecord.word).getD 0
  | .sviewHoldA h => ((supHolding s.supView h).map Holding.supWordA).getD 0
  | .sviewHoldB h => ((supHolding s.supView h).map Holding.wordB).getD 0
  | .poolPages => place s.poolPages 0
  | .collectTicks => place s.collectTicks 0
  | .graceTicks => place s.graceTicks 0
  | .orphanTicks => place s.orphanTicks 0
  | .prescaleDiv => place s.prescaleDiv 0
  | .tickDiv => place s.tickDiv 0
  | .tickEnable => placeBit s.tickEnable 0
  | .defaultTerm n => place (s.termsOf n).default 0
  | .termCap n => place (s.termsOf n).cap 0
  | .faultClear | .slotCollect _ | .slotCancel _ | .command => 0

/-- What a read that passed the judgments does. -/
def State.readReg (s : State) (p : Port) (a : BitVec 22) (r : Reg) : State :=
  match r with
  | .slotCollect k => s.collectSlot p k (controlPlace a)
  | r => s.doneWord p (s.regWord p r)

/-! ## The rows -/

/-- A write at a word with a row of its own. -/
def State.writeAt (s : State) (p : Port) (len : BitVec 4) (r : Reg) (own : State → State) : State :=
  s.access p len r.addr true fun _ s => own s

/-- SLOT_DESC_B (R27 to R32). -/
def execSlotDescB (p : Port) (len : BitVec 4) (k : SlotNo) (w : Word) (s : State) : Host.Outcome State Fault Refusal :=
  .next (s.writeAt p len (.slotDescB k) fun s => s.sendClaim p k w (controlPlace (Reg.slotDescB k).addr))

/-- SLOT_CANCEL (R35); the value written is ignored. -/
def execSlotCancel (p : Port) (len : BitVec 4) (k : SlotNo) (_w : Word) (s : State) : Host.Outcome State Fault Refusal :=
  .next (s.writeAt p len (.slotCancel k) fun s => s.cancelSlot p k (controlPlace (Reg.slotCancel k).addr))

/-- SLOT_COLLECT (R59 to R62). -/
def execSlotCollect (p : Port) (len : BitVec 4) (k : SlotNo) (s : State) : Host.Outcome State Fault Refusal :=
  .next (s.access p len (Reg.slotCollect k).addr false fun _ s => s.collectSlot p k (controlPlace (Reg.slotCollect k).addr))

/-- HOLD_QUEUE (R83, R84). -/
def execHoldQueue (p : Port) (len : BitVec 4) (w : Word) (s : State) : Host.Outcome State Fault Refusal :=
  .next (s.writeAt p len .holdQueue fun s => s.postItem p w)

/-- VIEW_INDEX (R20). -/
def execViewIndex (p : Port) (len : BitVec 4) (w : Word) (s : State) : Host.Outcome State Fault Refusal :=
  .next (s.writeAt p len .viewIndex fun s => s.takeView p w)

/-- SUP_VIEW_INDEX (R150). -/
def execSupViewIndex (p : Port) (len : BitVec 4) (w : Word) (s : State) : Host.Outcome State Fault Refusal :=
  .next (s.writeAt p len .supViewIndex fun s => s.takeSupView p w)

/-- NOTICE_PENDING (R154). -/
def execNoticePending (p : Port) (len : BitVec 4) (w : Word) (s : State) : Host.Outcome State Fault Refusal :=
  .next (s.writeAt p len .noticePending fun s => s.acknowledge p w)

/-- NOTICE_ENABLE (R153). -/
def execNoticeEnable (p : Port) (len : BitVec 4) (w : Word) (s : State) : Host.Outcome State Fault Refusal :=
  .next (s.writeAt p len .noticeEnable fun s => s.setEnables p w)

/-- FAULT_CLEAR (R158); the value written is ignored. -/
def execFaultClear (p : Port) (len : BitVec 4) (_w : Word) (s : State) : Host.Outcome State Fault Refusal :=
  .next (s.writeAt p len .faultClear fun s => s.clearFault p)

/-- TICK_ENABLE (R114). -/
def execTickEnable (p : Port) (len : BitVec 4) (w : Word) (s : State) : Host.Outcome State Fault Refusal :=
  .next (s.writeAt p len .tickEnable fun s => s.writeTickEnable p w)

/-- REGISTER_WRITE (R26, R113, R118, R137, R161): a single-word write, or a burst, at any address outside the pool window. At
the address of a word with a row of its own it is the same transaction as that row (notes/assumptions/18.md). -/
def execRegisterWrite (p : Port) (len : BitVec 4) (a : BitVec 22) (w : Word) (s : State) : Host.Outcome State Fault Refusal :=
  .next (s.access p len a true fun r s => s.writeReg p a w r)

/-- CONTROL_WINDOW_READ (R161 and the rules of the words): a read at any address outside the pool window. -/
def execControlWindowRead (p : Port) (len : BitVec 4) (a : BitVec 22) (s : State) : Host.Outcome State Fault Refusal :=
  .next (s.access p len a false fun r s => s.readReg p a r)

/-- A write of COMMAND (R136, R138). -/
def State.commandWrite (s : State) (p : Port) (len code : BitVec 4) (act : State → Word → State) : State :=
  s.writeAt p len .command fun s => s.startCommand p code (controlPlace Reg.command.addr) act

/-- OPEN_PORT (R124, R140). -/
def execOpenPort (p : Port) (len : BitVec 4) (s : State) : Host.Outcome State Fault Refusal :=
  .next (s.commandWrite p len Cmd.openPort State.cmdOpenPort)

/-- CLOSE_PORT (R125, R127, R140). -/
def execClosePort (p : Port) (len : BitVec 4) (s : State) : Host.Outcome State Fault Refusal :=
  .next (s.commandWrite p len Cmd.closePort State.cmdClosePort)

/-- RECALL_LEASE (R80, R141). -/
def execRecallLease (p : Port) (len : BitVec 4) (s : State) : Host.Outcome State Fault Refusal :=
  .next (s.commandWrite p len Cmd.recallLease State.cmdRecall)

/-- REVOKE_LEASE (R142, R143). -/
def execRevokeLease (p : Port) (len : BitVec 4) (s : State) : Host.Outcome State Fault Refusal :=
  .next (s.commandWrite p len Cmd.revokeLease State.cmdRevoke)

/-- ADOPT_LEASE (R144, R145). -/
def execAdoptLease (p : Port) (len : BitVec 4) (s : State) : Host.Outcome State Fault Refusal :=
  .next (s.commandWrite p len Cmd.adoptLease State.cmdAdopt)

/-- RETIRE_LEASE (R146). -/
def execRetireLease (p : Port) (len : BitVec 4) (s : State) : Host.Outcome State Fault Refusal :=
  .next (s.commandWrite p len Cmd.retireLease State.cmdRetire)

/-- SET_POOL (R148). -/
def execSetPool (p : Port) (len : BitVec 4) (s : State) : Host.Outcome State Fault Refusal :=
  .next (s.commandWrite p len Cmd.setPool State.cmdSetPool)

/-- PART_RESET (R149): answered DONE, which P0's answer lines keep (notes/assumptions/22.md). -/
def execPartReset (p : Port) (len : BitVec 4) (s : State) : Host.Outcome State Fault Refusal :=
  .next (s.commandWrite p len Cmd.partReset fun s _ => s.cmdPartReset)

/-- UNKNOWN_COMMAND (R138). A code that does name a command acts as that command (notes/assumptions/17.md). -/
def execUnknownCommand (p : Port) (len code : BitVec 4) (s : State) : Host.Outcome State Fault Refusal :=
  .next (s.commandWrite p len code fun s arg => s.runCommand code arg)

end Sys2Proof.Machine
end

