-- ==== Sys2Proof/Machine/Dispatch.lean ====
section
/-! DEFINITION. The effect of each command on everything but the queue: one arm for each row of spec/opcode_table.json. -/

namespace Sys2Proof.Machine

def exec (i : Instr) (s : State) : Host.Outcome State Fault Refusal :=
  match i with
  | .nreset => Sys2Proof.Machine.execNreset s
  | .nresetRelease => Sys2Proof.Machine.execNresetRelease s
  | .portResetLineAssert p => Sys2Proof.Machine.execPortResetLineAssert p s
  | .portResetLineRelease p => Sys2Proof.Machine.execPortResetLineRelease p s
  | .prescaleUnderflow => Sys2Proof.Machine.execPrescaleUnderflow s
  | .leaseTick => Sys2Proof.Machine.execLeaseTick s
  | .termEnd e p => Sys2Proof.Machine.execTermEnd e p s
  | .graceEnd e p => Sys2Proof.Machine.execGraceEnd e p s
  | .lapse p k => Sys2Proof.Machine.execLapse p k s
  | .orphanExpiry e => Sys2Proof.Machine.execOrphanExpiry e s
  | .poolWrite p a be ws => Sys2Proof.Machine.execPoolWrite p a be ws s
  | .poolRead p a be len => Sys2Proof.Machine.execPoolRead p a be len s
  | .heldReadJudge p => Sys2Proof.Machine.execHeldReadJudge p s
  | .burstStart => Sys2Proof.Machine.execBurstStart s
  | .poolWordReady m => Sys2Proof.Machine.execPoolWordReady m s
  | .evaluation => Sys2Proof.Machine.execEvaluation s
  | .slotDescB p len k w => Sys2Proof.Machine.execSlotDescB p len k w s
  | .slotCancel p len k w => Sys2Proof.Machine.execSlotCancel p len k w s
  | .slotCollect p len k => Sys2Proof.Machine.execSlotCollect p len k s
  | .holdQueue p len w => Sys2Proof.Machine.execHoldQueue p len w s
  | .release p => Sys2Proof.Machine.execRelease p s
  | .renew p => Sys2Proof.Machine.execRenew p s
  | .viewIndex p len w => Sys2Proof.Machine.execViewIndex p len w s
  | .supViewIndex p len w => Sys2Proof.Machine.execSupViewIndex p len w s
  | .noticePending p len w => Sys2Proof.Machine.execNoticePending p len w s
  | .noticeEnable p len w => Sys2Proof.Machine.execNoticeEnable p len w s
  | .faultClear p len w => Sys2Proof.Machine.execFaultClear p len w s
  | .tickEnable p len w => Sys2Proof.Machine.execTickEnable p len w s
  | .registerWrite p len a w => Sys2Proof.Machine.execRegisterWrite p len a w s
  | .openPort p len => Sys2Proof.Machine.execOpenPort p len s
  | .closePort p len => Sys2Proof.Machine.execClosePort p len s
  | .recallLease p len => Sys2Proof.Machine.execRecallLease p len s
  | .revokeLease p len => Sys2Proof.Machine.execRevokeLease p len s
  | .adoptLease p len => Sys2Proof.Machine.execAdoptLease p len s
  | .retireLease p len => Sys2Proof.Machine.execRetireLease p len s
  | .setPool p len => Sys2Proof.Machine.execSetPool p len s
  | .partReset p len => Sys2Proof.Machine.execPartReset p len s
  | .unknownCommand p len code => Sys2Proof.Machine.execUnknownCommand p len code s
  | .closeSecondStage p => Sys2Proof.Machine.execCloseSecondStage p s
  | .closeThirdStage p => Sys2Proof.Machine.execCloseThirdStage p s
  | .closeFourthStage p => Sys2Proof.Machine.execCloseFourthStage p s
  | .closeSixthStage p => Sys2Proof.Machine.execCloseSixthStage p s
  | .controlWindowRead p len a => Sys2Proof.Machine.execControlWindowRead p len a s

end Sys2Proof.Machine
end

