-- ==== Sys2Proof/Machine/Pins.lean ====
section
/-! DEFINITION. The output pins as functions of the state (R156, R159, R168, R169, Table 50). -/

namespace Sys2Proof.Machine

/-- What a port's lines carry to its host at one moment of an answer (R159, R169): `rv` while a read word is returned on
Pn_D, and `data` that word. While none is returned R169 gives Pn_D no value, and `data` is absent
(notes/assumptions/30.md). -/
structure ReturnBeat where
  rv : Bool
  data : Option Word
  ans : BitVec 2
  code : BitVec 4
  deriving DecidableEq, Repr

/-- The output lines of a port: those of the answer, and its attention line (R169, Table 50). -/
structure PortPins extends ReturnBeat where
  attn : Bool
  deriving DecidableEq, Repr

/-- Pn_ANS (R169). -/
def Answer.ans : Answer → BitVec 2
  | .none => 0
  | .done _ => 1
  | .retry => 2
  | .refuse _ => 3

/-- Pn_CODE carries the refusal code with REFUSE and 0 otherwise (R159, R169). -/
def Answer.codeLines : Answer → BitVec 4
  | .none => 0
  | .done _ => 0
  | .retry => 0
  | .refuse c => c.code

/-- The words an answer returns: those of a read answered DONE (R159). -/
def Answer.words : Answer → List Word
  | .none => []
  | .done ws => ws
  | .retry => []
  | .refuse _ => []

/-- The lines with the answer itself, which accompanies the last of the words (R159). -/
def Answer.lastBeat (a : Answer) : ReturnBeat :=
  { rv := !a.words.isEmpty, data := a.words.getLast?, ans := a.ans, code := a.codeLines }

/-- A word returned before the last one: no answer accompanies it (R159). -/
def earlierBeat (w : Word) : ReturnBeat := { rv := true, data := some w, ans := 0, code := 0 }

/-- What the lines carry, one after another, as a transaction is answered: the words in ascending address order, the answer
with the last of them, or the answer alone; nothing where no answer is driven (R159, R169). How many cycles lie between them
is left out (notes/assumptions/16.md). -/
def State.answerBeats (s : State) (p : Port) : List ReturnBeat :=
  let a := (s.port p).answer
  if a = .none then [] else a.words.dropLast.map earlierBeat ++ [a.lastBeat]

/-- The output lines of a port after an event: those of the answer last given, which the lines keep carrying
(notes/assumptions/10.md), and the attention line. -/
def State.portPins (s : State) (p : Port) : PortPins :=
  { (s.port p).answer.lastBeat with attn := s.attention p }

/-- The pool memory port (R168, R169). The four strobes and the byte write enables are low while active or set. Address, data
and parity are given while an access is under way. -/
structure MemPins where
  cen : Bool
  wen : Bool
  oen : Bool
  bwen : BitVec 4
  addr : Option (BitVec 22)
  data : Option Word
  parity : Option (BitVec 4)
  deriving DecidableEq, Repr

/-- The parity bits of a word, one for each lane (R108). That the parity of lane `i` is bit `i` of PM_P is a DESIGN CHOICE
(unsafe, notes/assumptions/31.md). -/
def wordParity (w : Word) : BitVec 4 :=
  (lanes.foldl (fun q i => q ||| ((BitVec.ofBool (parityBit (laneByte w i))).setWidth 4 <<< i.val)) 0)

/-- What the pool memory port drives: the word access under way, or nothing. R168 gives the levels during an access, and with
NRESET asserted those of chip enable, write strobe and read strobe. DESIGN CHOICE (unsafe, notes/assumptions/30.md): that
chip enable and the strobes are inactive too while no access is under way with NRESET released, and that the byte write
enables are all clear then, with NRESET asserted and during a read. DESIGN CHOICE (unsafe, notes/assumptions/31.md): that the
byte write enable of lane `i` is bit `i` of PM_BWEN. -/
def State.memPins (s : State) : MemPins :=
  match if s.nreset then none else s.memPort with
  | none => { cen := true, wen := true, oen := true, bwen := 0xF, addr := none, data := none, parity := none }
  | some b =>
    match b.kind with
    | .write ws =>
      { cen := false, wen := false, oen := true, bwen := ~~~b.enables, addr := some b.wordAddr, data := ws[b.done]?,
        parity := ws[b.done]?.map wordParity }
    | .read _ =>
      { cen := false, wen := true, oen := false, bwen := 0xF, addr := some b.wordAddr, data := none, parity := none }

end Sys2Proof.Machine
end

