-- ==== Sys2Proof/WellFormed.lean ====
section
/-! DEFINITION. Which terms of `Instr` are commands of the part. -/

namespace Sys2Proof

/-- A term is a command of the part. Only two rows have an operand that can express too much: the words of a pool write
are 1 to 16 (R94), and the code of UNKNOWN_COMMAND names no command of Table 48 (R138). -/
def Instr.wellFormed : Instr → Bool
  | .nreset => true
  | .nresetRelease => true
  | .portResetLineAssert _ => true
  | .portResetLineRelease _ => true
  | .prescaleUnderflow => true
  | .leaseTick => true
  | .termEnd _ _ => true
  | .graceEnd _ _ => true
  | .lapse _ _ => true
  | .orphanExpiry _ => true
  | .poolWrite _ _ _ ws => decide (1 ≤ ws.length) && decide (ws.length ≤ 16)
  | .poolRead _ _ _ _ => true
  | .heldReadJudge _ => true
  | .burstStart => true
  | .poolWordReady _ => true
  | .evaluation => true
  | .slotDescB _ _ _ _ => true
  | .slotCancel _ _ _ _ => true
  | .slotCollect _ _ _ => true
  | .holdQueue _ _ _ => true
  | .release _ => true
  | .renew _ => true
  | .viewIndex _ _ _ => true
  | .supViewIndex _ _ _ => true
  | .noticePending _ _ _ => true
  | .noticeEnable _ _ _ => true
  | .faultClear _ _ _ => true
  | .tickEnable _ _ _ => true
  | .registerWrite _ _ _ _ => true
  | .openPort _ _ => true
  | .closePort _ _ => true
  | .recallLease _ _ => true
  | .revokeLease _ _ => true
  | .adoptLease _ _ => true
  | .retireLease _ _ => true
  | .setPool _ _ => true
  | .partReset _ _ => true
  | .unknownCommand _ _ code => code == 0 || decide (8 < code.toNat)
  | .closeSecondStage _ => true
  | .closeThirdStage _ => true
  | .closeFourthStage _ => true
  | .closeSixthStage _ => true
  | .controlWindowRead _ _ _ => true

end Sys2Proof
end

