-- ==== Sys2Proof/Safety.lean ====
section
/-! DEFINITION. The terms in which claims about the controller are stated: when a transaction is taken, what an event on an
entry leaves, and the laws that the spec states of the tables and that every step keeps. -/

namespace Sys2Proof

open Sys2Proof.Machine

/-! ## When a transaction is taken -/

/-- The port interface takes a transaction of the port: NRESET and its line are released and no read of it is under way (R95,
R123, R159). -/
abbrev listens (s : State) (p : Port) : Prop := s.nreset = false ∧ (s.port p).lineHeld = false ∧ (s.port p).read = none

/-- The port is OPEN and takes transactions (R121). -/
abbrev serves (s : State) (p : Port) : Prop := listens s p ∧ (s.port p).state = .opened

/-- P0 serves and the command engine is IDLE, so that a write of COMMAND is accepted (R138). -/
abbrev commandable (s : State) : Prop := serves s 0 ∧ s.engine = none

/-- The clock counts: NRESET is released and the tick enable is on (R114). -/
abbrev clockOn (s : State) : Prop := s.nreset = false ∧ s.tickEnable = true

/-- The port whose host presents the transaction; pins, blocks inside and the memory present none. -/
def Instr.presenter : Instr → Option Port
  | .nreset => none
  | .nresetRelease => none
  | .portResetLineAssert _ => none
  | .portResetLineRelease _ => none
  | .prescaleUnderflow => none
  | .leaseTick => none
  | .termEnd _ _ => none
  | .graceEnd _ _ => none
  | .lapse _ _ => none
  | .orphanExpiry _ => none
  | .poolWrite p _ _ _ => some p
  | .poolRead p _ _ _ => some p
  | .heldReadJudge _ => none
  | .burstStart => none
  | .poolWordReady _ => none
  | .evaluation => none
  | .slotDescB p _ _ _ => some p
  | .slotCancel p _ _ _ => some p
  | .slotCollect p _ _ => some p
  | .holdQueue p _ _ => some p
  | .release _ => none
  | .renew _ => none
  | .viewIndex p _ _ => some p
  | .supViewIndex p _ _ => some p
  | .noticePending p _ _ => some p
  | .noticeEnable p _ _ => some p
  | .faultClear p _ _ => some p
  | .tickEnable p _ _ => some p
  | .registerWrite p _ _ _ => some p
  | .openPort p _ => some p
  | .closePort p _ => some p
  | .recallLease p _ => some p
  | .revokeLease p _ => some p
  | .adoptLease p _ => some p
  | .retireLease p _ => some p
  | .setPool p _ => some p
  | .partReset p _ => some p
  | .unknownCommand p _ _ => some p
  | .closeSecondStage _ => none
  | .closeThirdStage _ => none
  | .closeFourthStage _ => none
  | .closeSixthStage _ => none
  | .controlWindowRead p _ _ => some p

/-- The empty queue, `n` times: the block counts `n` cycles of SYSCLK (notes/assumptions/2.md). -/
def cycles (n : Nat) (s : State) : Host.Outcome State Fault Refusal := core.run n s

/-! ## Ports after an event -/

/-- A port with some more notices pending, unless it is CLOSED (R152). -/
def flagsSet (r : PortRec) (m : BitVec 8) : PortRec :=
  { r with noticesPending := if r.state = .closed then r.noticesPending else r.noticesPending ||| m }

/-- A port after a refusal other than PORT_CLOSED: the answer, the fault record and the FAULT notice (R157). -/
def refusedPort (r : PortRec) (c : RefusalCode) (place : FaultPlace) : PortRec :=
  flagsSet { r with answer := .refuse c, fault := some (FaultRecord.offered r.fault c place) } 0x10

/-- A port with an answer on its lines. -/
def answered (r : PortRec) (a : Answer) : PortRec := { r with answer := a }

/-- A port with one of its slots replaced. -/
def withSlot (r : PortRec) (k : SlotNo) (x : Slot) : PortRec := { r with slots := r.slots.put k x }

/-- A port whose read has ended with this answer, which is not driven while the port closes by its line (R131). -/
def readEndedPort (r : PortRec) (a : Answer) : PortRec :=
  { r with
      read := none
      answer := match r.state with
        | .closing .line _ => .none
        | _ => a }

/-- A port whose read at a pool word address has ended in a refusal (R96, R109, R131, R157). -/
def readRefusedPort (r : PortRec) (c : RefusalCode) (a : BitVec 22) : PortRec :=
  readEndedPort (refusedPort r c (.read (poolAddr a))) (.refuse c)

/-- The address lies in the supervisor window (Table 40). -/
abbrev inSupervisor (a : BitVec 22) : Prop := 0x1000 ≤ 4 * a.toNat ∧ 4 * a.toNat < 0x2000

/-- The state after a window transaction has been refused (R157, R161). -/
def windowRefused (s : State) (p : Port) (a : BitVec 22) (c : RefusalCode) : State :=
  s.setPort p (refusedPort (s.port p) c (.control (windowAddr a)))

/-- The command engine is BUSY with a CLOSE_PORT of this port (R125). -/
def closeAwaited (s : State) (p : Port) : Bool := s.engine.any fun c => c.code == 2 && argPort c.arg == p

/-- The ports of a state with one of them replaced. -/
def portsBut (s : State) (p : Port) (r : PortRec) (q : Port) : PortRec := if q = p then r else s.port q

/-- The state after a supervisor command has completed with this result and its write has been answered DONE, when the
command changed nothing else (R138, R139). -/
def completed (s : State) (code : BitVec 4) (r : CmdResult) : State :=
  { s.setPort 0 (answered (flagsSet (s.port 0) 0x20) (.done [])) with engine := none, result := some ⟨code, r⟩ }

/-- No notice at any port. -/
def noMarks : Port → BitVec 8 := fun _ => 0

/-- One notice at one port. -/
def markAt (p : Port) (m : BitVec 8) : Port → BitVec 8 := fun q => if q = p then m else 0

/-! ## What an event on one entry leaves -/

/-- Every other entry stays as it was. -/
abbrev othersKept (s t : State) (e : EntryId) : Prop := ∀ f, f ≠ e → t.entry f = s.entry f

/-- Nothing but entries, ports, the call for an evaluation, the engine and its result word differs: the pool, the clock, the
wait queue, the configuration, the memory port and the waiting commands stay. -/
abbrev leaseFrame (s t : State) : Prop :=
  t = { s with entries := t.entries, ports := t.ports, evalCalled := t.evalCalled, engine := t.engine, result := t.result }

/-- The command engine waits for the entry to become FREE (R143, R146). -/
def awaits (s : State) (e : EntryId) : Bool :=
  match s.engine with
  | none => false
  | some c => c.waitsFor e

/-- The entry becomes `x` and stays in use: no evaluation is called for and no command completes. The ports are `before`, with
these notices set. -/
abbrev becomes (s t : State) (e : EntryId) (x : Entry) (before : Port → PortRec) (marks : Port → BitVec 8) : Prop :=
  leaseFrame s t ∧ othersKept s t e ∧ t.entry e = x ∧ t.evalCalled = s.evalCalled ∧ t.engine = s.engine ∧
  t.result = s.result ∧ ∀ q, t.port q = flagsSet (before q) (marks q)

/-- The entry becomes FREE with its generation kept: an evaluation is called for, and a REVOKE_LEASE or RETIRE_LEASE that
waits for it completes with OK and P0's COMMAND notice (R19, R139). -/
abbrev becomesFree (s t : State) (e : EntryId) (before : Port → PortRec) (marks : Port → BitVec 8) : Prop :=
  leaseFrame s t ∧ othersKept s t e ∧ t.entry e = { Entry.unused with generation := (s.entry e).generation } ∧
  t.evalCalled = true ∧
  t.engine = (if awaits s e = true then none else s.engine) ∧
  t.result = (if awaits s e = true then s.engine.map (fun c => ⟨c.code, .ok⟩) else s.result) ∧
  ∀ q, t.port q = flagsSet (before q) (marks q ||| if awaits s e = true ∧ q = 0 then 0x20 else 0)

/-- The entry as DRAINING: without holdings and orphan record, the rest kept (R17, R18). -/
def drainingEntry (x : Entry) : Entry := { x with state := .draining, holdings := [], orphan := none, tickDue := false }

/-- The entry is left with no holder: DRAINING if bursts are in flight under it, FREE otherwise (R17, R18). -/
abbrev leaves (s t : State) (e : EntryId) (before : Port → PortRec) (marks : Port → BitVec 8) : Prop :=
  if (s.entry e).inFlight = 0 then becomesFree s t e before marks
  else becomes s t e (drainingEntry (s.entry e)) before marks

/-- The holdings of the other ports. -/
def heldByOthers (x : Entry) (p : Port) : List Holding := x.holdings.filter fun h => h.port != p

/-- The port's holding is gone from the entry, which leaves LIVE if it was the last (R17). -/
abbrev losesHolding (s t : State) (e : EntryId) (p : Port) (before : Port → PortRec) (marks : Port → BitVec 8) : Prop :=
  if heldByOthers (s.entry e) p = [] then leaves s t e before marks
  else becomes s t e { s.entry e with holdings := heldByOthers (s.entry e) p } before marks

/-- The entry as an orphan of a port (R12, R67, R130). A tick that waits there goes on waiting, unless the record is not
timed (R116; notes/assumptions/6.md). -/
def orphanedEntry (x : Entry) (former : Port) (ticks : BitVec 16) : Entry :=
  { x with state := .orphaned, holdings := [], tickDue := x.tickDue && ticks != 0,
           orphan := some { former := former, counter := ticks, timed := ticks != 0 } }

/-- The grant is given back: its holding is gone, or its entry is ORPHANED again with P0's ORPHAN notice (R66, R67). -/
abbrev givesBack (s t : State) (p : Port) (g : Grant) (before : Port → PortRec) (marks : Port → BitVec 8) : Prop :=
  if g.kind = .adopted then
    becomes s t g.handle.entry (orphanedEntry (s.entry g.handle.entry) p s.orphanTicks) before
      (fun q => marks q ||| if q = 0 then 0x40 else 0)
  else losesHolding s t g.handle.entry p before marks

/-- A burst tied to the entry finishes: the count falls by one, and a DRAINING entry whose count falls to zero becomes FREE
(R14, R18, R106). -/
abbrev burstEnds (s t : State) (e : EntryId) (before : Port → PortRec) (marks : Port → BitVec 8) : Prop :=
  if (s.entry e).state = .draining ∧ (s.entry e).inFlight ≤ 1 then becomesFree s t e before marks
  else becomes s t e { s.entry e with inFlight := (s.entry e).inFlight - 1 } before marks

/-- The notices of a lease tick's event on a LIVE entry: RECALL where a term ends under contest, REVOKE where a grace runs out
(R76, R82). -/
def tickMarks (x : Entry) (q : Port) : BitVec 8 :=
  (if x.contested = true ∧ q ∈ x.ending .held then 0x04 else 0) ||| (if q ∈ x.ending .recalled then 0x08 else 0)

/-- What a lease tick's event leaves of a LIVE entry's holdings. -/
def afterTick (s : State) (x : Entry) : List Holding := x.holdings.filterMap (Holding.tick x.contested s.graceTicks)

/-- The entry as newly contested: its OVERDUE holdings are recalled while it is LIVE (R78). -/
def contestedEntry (grace : BitVec 8) (x : Entry) : Entry :=
  { x with
      contested := true
      holdings := if x.state = .live then x.holdings.map fun h =>
          if h.state = .overdue then { h with state := .recalled, term := 0, grace := grace, forced := false } else h
        else x.holdings }

/-- The entry as no longer contested: its recalls that were not forced are lifted while it is LIVE (R79). -/
def uncontestedEntry (x : Entry) : Entry :=
  { x with
      contested := false
      holdings := if x.state = .live then x.holdings.map fun h =>
          if h.state = .recalled ∧ h.forced = false then { h with state := .overdue, term := 0, grace := 0, forced := false }
          else h
        else x.holdings }

/-- The entry when a tick has been handed out (R74, R81, R116, R147): counters fall by one; where one would end, the tick
waits at the entry (notes/assumptions/4.md). -/
def tickedEntry (x : Entry) : Entry :=
  if x.tickEnds then { x with tickDue := true }
  else
    { x with
        holdings := if x.state = .live then x.holdings.map fun h =>
            match h.state with
            | .awarded => h
            | .held => { h with term := h.term - 1 }
            | .overdue => h
            | .recalled => { h with grace := h.grace - 1 }
          else x.holdings
        orphan := if x.state = .orphaned then x.orphan.map fun o =>
            if o.timed then { o with counter := o.counter - 1 } else o
          else x.orphan }

/-- The slot when a tick has been handed out (R64, R116; notes/assumptions/4.md). -/
def tickedSlot (x : Slot) : Slot :=
  match x with
  | .empty => .empty
  | .waiting d => .waiting d
  | .denied d c => .denied d c
  | .granted d g =>
    if g.collect ≤ 1 then .granted d { g with tickDue := true }
    else .granted d { g with collect := g.collect - 1, tickDue := false }

/-- No tick waits at any entry or slot. -/
abbrev settled (s : State) : Prop := (∀ e, (s.entry e).tickDue = false) ∧ ∀ p k, (s.slot p k).tickDue = false

/-- A lease tick's event on an entry has been taken there, by the state the entry is in; on a FREE or DRAINING entry, and on
an ORPHANED one whose record is not timed, it has no effect (R74, R76, R81, R82, R116, R147). -/
def tickTakenAt (s t : State) (e : EntryId) : Prop :=
  let x := s.entry e
  match x.state with
  | .free => t = s.setEntry e { x with tickDue := false }
  | .draining => t = s.setEntry e { x with tickDue := false }
  | .live =>
    if x.holdings ≠ [] ∧ afterTick s x = [] then leaves s t e s.port (tickMarks x)
    else becomes s t e { x with tickDue := false, holdings := afterTick s x } s.port (tickMarks x)
  | .orphaned =>
    match x.orphan with
    | none => t = s.setEntry e { x with tickDue := false }
    | some o =>
      if o.timed = true ∧ o.counter ≤ 1 then leaves s t e s.port (markAt 0 0x80)
      else t = s.setEntry e
        { x with tickDue := false, orphan := some { o with counter := if o.timed = true then o.counter - 1 else o.counter } }

/-- A lease tick's event on a slot has been taken there: the collect counter of a GRANTED slot falls by one, or the grant lapses
with the LAPSE notice (R64 to R67, R116). -/
def tickTakenIn (s t : State) (p : Port) (k : SlotNo) : Prop :=
  match s.slot p k with
  | .empty => t = s
  | .waiting _ => t = s
  | .denied _ _ => t = s
  | .granted d g =>
    if 1 < g.collect then
      t = s.setPort p (withSlot (s.port p) k (.granted d { g with collect := g.collect - 1, tickDue := false }))
    else givesBack s t p g (portsBut s p (withSlot (s.port p) k .empty)) (markAt p 0x02)

/-- One tick that waits, at an entry or at a slot, takes its event there. -/
def takesTick (s t : State) : Prop :=
  (∃ e, (s.entry e).tickDue = true ∧ tickTakenAt s t e) ∨ ∃ p k, (s.slot p k).tickDue = true ∧ tickTakenIn s t p k

/-- Ticks that wait have taken their events one after another, each as `takesTick` says. -/
def ticksTaken (s t : State) : Prop := Relation.ReflTransGen takesTick s t

/-- A WAITING claim of a slot has left the slot and the queue other than by grant: each entry it alone contested is contested no
more, and an evaluation is called for (R34, R40, R56, R79). -/
abbrev withdraws (s t : State) (p : Port) (k : SlotNo) (d : Descriptor) : Prop :=
  t = { s with entries := t.entries, ports := t.ports, waitQueue := s.waitQueue.erase ⟨p, k⟩, evalCalled := true } ∧
  (∀ e, t.entry e =
    if (s.entry e).conflicts d = true ∧
        (s.claims (s.waitQueue.filter fun c => c != ⟨p, k⟩)).any (fun c => (s.entry e).conflicts c) = false
    then uncontestedEntry (s.entry e) else s.entry e) ∧
  ∀ q, t.port q = portsBut s p (withSlot (s.port p) k .empty) q

/-- What the fourth stage of the close of a port does to one entry (Table 30); the entry's own part alone. -/
def vacatedEntry (p : Port) (ticks : BitVec 16) (x : Entry) : Entry :=
  match x.holdingState p with
  | none => x
  | some st =>
    if x.mode = .exclusive ∧ (st = .held ∨ st = .overdue) then orphanedEntry x p ticks
    else if heldByOthers x p ≠ [] then { x with holdings := heldByOthers x p }
    else if x.inFlight = 0 then { Entry.unused with generation := x.generation }
    else drainingEntry x

/-- The fourth stage of the close of a port frees the entry that a BUSY engine waits for (R19, R143, R146). Only then does the
stage complete a command; a close by CLOSE_PORT waits for no entry. -/
abbrev closeFreesAwaited (s : State) (p : Port) : Prop :=
  ∃ e, awaits s e = true ∧ (s.entry e).holdingState p ≠ none ∧ (vacatedEntry p s.orphanTicks (s.entry e)).state = .free

/-! ## The pool -/

/-- The byte and its parity at a pool byte address are as they were. -/
abbrev byteKept (s t : State) (a : Nat) : Prop := t.poolByte a = s.poolByte a ∧ t.poolParityAt a = s.poolParityAt a

/-- The word is stored in the enabled lanes with odd parity, and every other byte of the pool is as it was (R102, R108).
That lane `i` is bits `8i+7` to `8i` of the word is a DESIGN CHOICE (unsafe, notes/assumptions/31.md). -/
def storesWord (s t : State) (base : Nat) (be : BitVec 4) (w : Word) : Prop :=
  (∀ i : Fin 4, be.getLsbD i.val = true →
    t.poolByte (base + i.val) = w.extractLsb' (8 * i.val) 8 ∧
    t.poolParityAt (base + i.val) = parityBit (w.extractLsb' (8 * i.val) 8)) ∧
  ∀ a, (∀ i : Fin 4, be.getLsbD i.val = true → a ≠ base + i.val) → byteKept s t a

/-- What part reset may leave of the pool (R110): with no write under way every byte is kept; otherwise only the enabled lanes of
the word under way differ, each written whole or left with data and parity that do not agree. That lane `i` is bits `8i+7` to
`8i` of the word is a DESIGN CHOICE (unsafe, notes/assumptions/31.md). -/
abbrev tornWord (s t : State) : Prop :=
  (s.memPort = none → ∀ a, byteKept s t a) ∧
  (∀ b len, s.memPort = some b → b.kind = .read len → ∀ a, byteKept s t a) ∧
  ∀ b ws w, s.memPort = some b → b.kind = .write ws → ws[b.done]? = some w →
    (∀ a, (∀ i : Fin 4, b.enables.getLsbD i.val = true → a ≠ byteAddr b.wordAddr + i.val) → byteKept s t a) ∧
    ∀ (i : Fin 4) a, b.enables.getLsbD i.val = true → a = byteAddr b.wordAddr + i.val →
      byteKept s t a ∨
      (t.poolByte a = w.extractLsb' (8 * i.val) 8 ∧ t.poolParityAt a = parityBit (t.poolByte a)) ∨
      t.poolParityAt a ≠ parityBit (t.poolByte a)

/-! ## Grants -/

/-- The grant in a slot, with the claim it answers. -/
def grantIn : Slot → Option (Descriptor × Grant)
  | .empty => none
  | .waiting _ => none
  | .granted d g => some (d, g)
  | .denied _ _ => none

/-- The claim of the port can join the lease of this entry: both SHARED, the ranges the same, and no holding of the port there
(R44). -/
abbrev joinable (s : State) (p : Port) (d : Descriptor) (e : EntryId) : Prop :=
  d.mode = .shared ∧ (s.entry e).state = .live ∧ (s.entry e).mode = .shared ∧ (s.entry e).range = d.range ∧
  (s.entry e).holdingOf p = none

/-- The slot holds a grant of this claim, made by joining or by allocation, and its AWARDED holding stands in the entry that the
grant names (R51, R63). -/
abbrev grantedTo (t : State) (p : Port) (k : SlotNo) (d : Descriptor) (e : EntryId) : Prop :=
  ∃ g, t.slot p k = .granted d g ∧ g.kind ≠ .adopted ∧ g.handle.entry = e ∧
    (t.entry e).state = .live ∧ (t.entry e).generation = g.handle.generation ∧ (t.entry e).range = d.range ∧
    (t.entry e).mode = d.mode ∧ (t.entry e).holdingState p = some .awarded

/-! ## Laws of one entry (R5, R8, R11, R12, R18, R19) -/

/-- The ports of the holdings rise strictly, so no port has two (R5, R11). -/
abbrev portsRise (hs : List Holding) : Prop := (hs.map Holding.port).Pairwise (fun a b => a < b)

/-- A FREE entry is cleared; an entry is LIVE exactly when it has a holding; an EXCLUSIVE one has at most one; holdings stand
in port order; a DRAINING entry has bursts in flight and no orphan record; an ORPHANED one has its record. -/
abbrev EntryShape (x : Entry) : Prop :=
  (x.state = .free → x = { Entry.unused with generation := x.generation }) ∧
  (x.state = .live ↔ x.holdings ≠ []) ∧
  (x.mode = .exclusive → x.holdings.length ≤ 1) ∧
  portsRise x.holdings ∧
  (x.state = .draining → x.inFlight ≠ 0 ∧ x.orphan = none) ∧
  (x.state = .orphaned → x.orphan.isSome = true)

/-- The fields of a holding in each state (Tables 5 and 20). -/
abbrev HoldingShape (h : Holding) : Prop :=
  h.granted ≠ 0 ∧
  (h.state = .awarded → h.term = h.granted ∧ h.grace = 0 ∧ h.forced = false) ∧
  (h.state = .held → h.term ≠ 0 ∧ h.grace = 0 ∧ h.forced = false) ∧
  (h.state = .overdue → h.term = 0 ∧ h.grace = 0 ∧ h.forced = false) ∧
  (h.state = .recalled → h.term = 0 ∧ h.grace ≠ 0)

/-! ## Laws of the tables by themselves -/

/-- The claim of a slot that is WAITING or GRANTED. -/
def liveClaim : Slot → Option Descriptor
  | .empty => none
  | .waiting d => some d
  | .granted d _ => some d
  | .denied _ _ => none

/-- The slot is GRANTED and its grant names the entry. -/
def grantNames (x : Slot) (e : EntryId) : Bool := (grantIn x).any fun g => g.2.handle.entry == e

/-- The timing values lie in their ranges (Table 25), every holding has the fields of its state, and every grant waits with a
collect counter above zero (R64). -/
abbrev CountersLaw (s : State) : Prop :=
  s.collectTicks ≠ 0 ∧ s.graceTicks ≠ 0 ∧ (∀ p, (s.termsOf p).default ≠ 0 ∧ (s.termsOf p).cap ≠ 0) ∧
  (∀ e, ∀ h ∈ (s.entry e).holdings, HoldingShape h) ∧
  ∀ p k, (grantIn (s.slot p k)).all (fun g => g.2.collect != 0) = true

/-- The rooms of a port: at most 4 items and 2 buffered writes, no read accepted beside a buffered write, and no flag of a
kind the port does not have (R83, R100, R103, R152). -/
abbrev RoomLaw (s : State) : Prop :=
  ∀ p, (s.port p).holdQueue.length ≤ 4 ∧ (s.port p).writeBuffer.length ≤ 2 ∧
    ((s.port p).read.all (fun r => r.stage == .held) = true ∨ (s.port p).writeBuffer = []) ∧
    (s.port p).noticesPending &&& ~~~(noticeKinds p) = 0 ∧ (s.port p).noticesEnabled &&& ~~~(noticeKinds p) = 0

/-- The pool memory has its canonical form. -/
abbrev PoolForm (s : State) : Prop := Cells.wf s.poolData = true ∧ Cells.wf s.poolParity = true

/-- The queue holds every WAITING claim exactly once and nothing else (R33). -/
abbrev QueueLaw (s : State) : Prop :=
  s.waitQueue.Nodup ∧ ∀ p k, (⟨p, k⟩ ∈ s.waitQueue ↔ (s.claimAt ⟨p, k⟩).isSome = true)

/-! ## Laws between the tables -/

/-- A GRANTED slot has its AWARDED holding, in a LIVE entry of the generation its grant names (R63, R72); an ADOPTED grant
names an EXCLUSIVE entry. -/
abbrev GrantHasHolding (s : State) : Prop :=
  ∀ p k, ∀ g ∈ grantIn (s.slot p k),
    (s.entry g.2.handle.entry).state = .live ∧ (s.entry g.2.handle.entry).generation = g.2.handle.generation ∧
    (s.entry g.2.handle.entry).holdingState p = some .awarded ∧ (s.entry g.2.handle.entry).range = g.1.range ∧
    (g.2.kind = .adopted → (s.entry g.2.handle.entry).mode = .exclusive)

/-- An AWARDED holding has exactly one GRANTED slot of its port that names its entry (R63). -/
abbrev HoldingHasGrant (s : State) : Prop :=
  ∀ e p, (s.entry e).holdingState p = some .awarded →
    ∃ k, grantNames (s.slot p k) e = true ∧ ∀ k', grantNames (s.slot p k') e = true → k' = k

/-- What the stages of a close have dealt with stays dealt with (R127 to R129). -/
abbrev StageLaw (s : State) (p : Port) : Prop :=
  (s.closeStage p = some .third ∨ s.closeStage p = some .fourth ∨ s.closeStage p = some .fifth → (s.port p).holdQueue = []) ∧
  (s.closeStage p = some .fourth ∨ s.closeStage p = some .fifth → ∀ k, s.slot p k = .empty) ∧
  (s.closeStage p = some .fifth → ∀ e, (s.entry e).holdingOf p = none)

/-- A CLOSED port holds nothing (R133). -/
abbrev ClosedLaw (s : State) (p : Port) : Prop :=
  (∀ k, s.slot p k = .empty) ∧ (∀ e, (s.entry e).holdingOf p = none) ∧ (s.port p).holdQueue = [] ∧
  (s.port p).writeBuffer = [] ∧ (s.port p).read = none ∧ (s.port p).noticesPending = 0 ∧ (s.port p).noticesEnabled = 0 ∧
  (s.port p).fault = none ∧ (s.port p).view = none

/-- The laws of closing and CLOSED ports, at every port. -/
abbrev PortLaw (s : State) : Prop := ∀ p, StageLaw s p ∧ ((s.port p).state = .closed → ClosedLaw s p)

/-- The bursts of a port that are accepted under an entry and not finished (R14). -/
def tiedAt (s : State) (p : Port) (e : EntryId) : Nat :=
  ((s.port p).writeBuffer.filter fun w => w.entry == e).length +
    (match (s.port p).read with
     | none => 0
     | some r => if r.stage = .accepted e then 1 else 0)

/-- The bursts accepted under an entry and not finished (R14). -/
def tied (s : State) (e : EntryId) : Nat := tiedAt s 0 e + tiedAt s 1 e + tiedAt s 2 e + tiedAt s 3 e

/-- The burst at the memory port is the one its port offers (R105, R106). -/
def activeOffered (s : State) : Bool :=
  match s.memPort with
  | none => true
  | some b =>
    match b.kind with
    | .write ws => (s.port b.port).writeBuffer.head? == some ⟨b.addr, b.enables, ws, b.entry⟩
    | .read len => (s.port b.port).read == some ⟨b.addr, b.enables, len, .accepted b.entry⟩

/-- The in-flight count of every entry equals the number of bursts accepted under it and not yet finished, a FREE entry has
none, and the burst being carried out is one of them (R14). -/
abbrev FlightLaw (s : State) : Prop :=
  (∀ e, (s.entry e).inFlight = tied s e) ∧ (∀ e, (s.entry e).state = .free → (s.entry e).inFlight = 0) ∧
  activeOffered s = true

/-- The lease table, the claim table and the ports fit together: every entry has its shape, an entry in use has a generation
(R8), an ORPHANED one is EXCLUSIVE (R6), the two halves of every grant stand together (R63), and closing and CLOSED ports
hold what they may (R133). -/
abbrev LeaseLaw (s : State) : Prop :=
  (∀ e, EntryShape (s.entry e)) ∧ (∀ e, (s.entry e).state ≠ .free → (s.entry e).generation ≠ 0) ∧
  (∀ e, (s.entry e).state = .orphaned → (s.entry e).mode = .exclusive) ∧
  PortLaw s ∧ GrantHasHolding s ∧ HoldingHasGrant s

/-- Two entries that are not FREE share pages only if both are SHARED and neither is ORPHANED (R6). -/
abbrev NoConflict (s : State) : Prop :=
  ∀ e f, e ≠ f → (s.entry e).state ≠ .free → (s.entry f).state ≠ .free →
    (s.entry e).range.overlaps (s.entry f).range = true →
    (s.entry e).countsAs = .shared ∧ (s.entry f).countsAs = .shared

/-- The ranges of a port's holdings and of its WAITING claims do not overlap one another (R29). A GRANTED claim stands here as
its AWARDED holding. -/
abbrev OwnRangesApart (s : State) : Prop :=
  ∀ p,
    (∀ e f, e ≠ f → ((s.entry e).holdingOf p).isSome = true → ((s.entry f).holdingOf p).isSome = true →
      (s.entry e).range.overlaps (s.entry f).range = false) ∧
    (∀ k, ∀ d ∈ s.claimAt ⟨p, k⟩,
      (∀ e, ((s.entry e).holdingOf p).isSome = true → (s.entry e).range.overlaps d.range = false) ∧
      ∀ k', k' ≠ k → ∀ d' ∈ s.claimAt ⟨p, k'⟩, d'.range.overlaps d.range = false)

/-- An entry is contested exactly while a WAITING claim conflicts with it (R55). -/
abbrev ContestLaw (s : State) : Prop :=
  ∀ e, (s.entry e).contested = (s.claims s.waitQueue).any (fun d => (s.entry e).conflicts d)

/-- No claim of the queue could be granted (R47, R48). -/
abbrev NothingGrantable (s : State) : Prop :=
  ∀ c ∈ s.waitQueue, ∀ d ∈ s.claimAt c,
    s.grantable (s.claims (s.waitQueue.takeWhile fun x => x != c)) c.port d = false

end Sys2Proof
end

