-- ==== Sys2Proof/Certificates/Slice0/Obligations.lean ====
section
/-! DEFINITION. The statements for the provers. Each docstring names the rules of spec/ that the statement formalises, or says
that it states a choice of the model and names its log entry. -/

open Sys2Proof Sys2Proof.Machine

/-! ## The machine -/

/-- One step carries out the command at the front of the queue, on the state with the rest of the queue. The queue is the
model's own (notes/assumptions/1.md). -/
def Obligations.StepRunsFrontCommand : Prop :=
  ∀ (c : Instr) (rest : List Instr) (s : State), step { s with pending := c :: rest } = exec c { s with pending := rest }

/-- Every command that a host can present completes and leaves the queue alone; a pool write of no words, or of more than 16,
is refused as malformed (R94; notes/assumptions/19.md). -/
def Obligations.EveryCommandAnswersNext : Prop :=
  (∀ (c : Instr) (s : State), c.wellFormed = true → ∃ t, exec c s = .next t ∧ t.pending = s.pending) ∧
  ∀ (p : Port) (a : BitVec 22) (be : BitVec 4) (ws : List Word) (s : State),
    ¬(1 ≤ ws.length ∧ ws.length ≤ 16) → exec (.poolWrite p a be ws) s = .refused .malformed

/-- With no command waiting a step is one cycle of SYSCLK, by the rules of the two stages (R112 to R114, R117). A tick that the
cycle produces is handed over as LEASE_TICK does, and every event it waits with is then taken, one after another (R116). That
the empty queue is where cycles pass and that the tick is taken whole there is the model's choice (notes/assumptions/2.md), as
is that an underflow still due is taken before the cycle's own (notes/assumptions/3.md). What becomes of a tick that waits at an
entry that leaves its state meanwhile is the model's choice, DESIGN CHOICE, unsafe (notes/assumptions/6.md). -/
def Obligations.EmptyQueueCountsOneCycle : Prop :=
  ∀ s : State, s.pending = [] →
    (¬clockOn s → step s = .next s) ∧
    (clockOn s → s.prescaleCounter ≠ 0 → step s = .next { s with prescaleCounter := s.prescaleCounter - 1 }) ∧
    (clockOn s → s.prescaleCounter = 0 → s.tickDue = false → s.tickCounter ≠ 0 →
      step s = .next { s with prescaleCounter := s.prescaleDiv, tickCounter := s.tickCounter - 1 }) ∧
    (clockOn s → s.prescaleCounter = 0 → s.tickDue = false → s.tickCounter = 0 →
      ∃ u t, exec .leaseTick s = .next u ∧ step s = .next t ∧ ticksTaken u t ∧ settled t ∧
        t.prescaleCounter = s.prescaleDiv ∧ t.tickCounter = s.tickDiv ∧ t.leaseTime = s.leaseTime + 1 ∧ t.tickDue = false) ∧
    (clockOn s → s.prescaleCounter = 0 → s.tickDue = true →
      ∃ u, exec .leaseTick s = .next u ∧ u.pending = [] ∧ u.tickDue = false ∧ u.prescaleCounter = 0 ∧ clockOn u ∧
        step s = step u)

/-- The time to the next lease tick is the count left in the two counters, and with both counters freshly loaded it is
(prescale value + 1) × (tick value + 1) cycles of SYSCLK; until then nothing but the counters moves (R112). That cycles pass
on the empty queue is the model's choice (notes/assumptions/2.md). -/
def Obligations.LeaseTickInterval : Prop :=
  ∀ (s : State) (n : Nat), s.pending = [] → clockOn s → s.tickDue = false →
    n = s.tickCounter.toNat * (s.prescaleDiv.toNat + 1) + s.prescaleCounter.toNat + 1 →
    (∀ m, m < n → ∃ u, cycles m s = .next u ∧
      u = { s with prescaleCounter := u.prescaleCounter, tickCounter := u.tickCounter }) ∧
    (∃ t, cycles n s = .next t ∧ t.leaseTime = s.leaseTime + 1 ∧ t.prescaleCounter = s.prescaleDiv ∧
      t.tickCounter = s.tickDiv ∧ t.prescaleDiv = s.prescaleDiv ∧ t.tickDiv = s.tickDiv ∧ clockOn t ∧ t.tickDue = false ∧
      t.pending = []) ∧
    (s.prescaleCounter = s.prescaleDiv → s.tickCounter = s.tickDiv →
      n = (s.prescaleDiv.toNat + 1) * (s.tickDiv.toNat + 1))

/-! ## Reset (R1, R23, R39, R58, R93, R110, R115, R118, R135, R137) -/

/-- What the rules give for part reset holds at State.reset, but for the levels of the pins (notes/assumptions/14.md): with
them released P0 is OPEN. -/
def Obligations.ResetHoldsTheRuleValues : Prop :=
  (∀ e, let x := State.reset.entry e
    x.state = .free ∧ x.generation = 0 ∧ x.inFlight = 0 ∧ x.contested = false ∧ x.holdings = [] ∧ x.orphan = none) ∧
  (∀ p, let r := State.reset.port p
    r.state = (if p = 0 then .opened else .closed) ∧ (∀ k, r.slots.look k = .empty ∧ r.staging.look k = ⟨0, 0⟩) ∧
    r.holdQueue = [] ∧ r.writeBuffer = [] ∧ r.read = none ∧ r.view = none ∧ r.fault = none ∧ r.noticesPending = 0 ∧
    r.noticesEnabled = 0 ∧ State.reset.attention p = false) ∧
  State.reset.waitQueue = [] ∧ State.reset.memPort = none ∧ State.reset.pointer = 0 ∧
  State.reset.prescaleDiv = 249 ∧ State.reset.prescaleCounter = 249 ∧ State.reset.tickDiv = 159 ∧
  State.reset.tickCounter = 159 ∧ State.reset.tickEnable = true ∧ State.reset.leaseTime = 0 ∧
  State.reset.poolPages = 16384 ∧ State.reset.collectTicks = 16 ∧ State.reset.graceTicks = 8 ∧
  State.reset.orphanTicks = 0 ∧ (∀ p, State.reset.termsOf p = ⟨256, 65535⟩) ∧
  State.reset.engine = none ∧ State.reset.cmdArg = 0 ∧ State.reset.result = none ∧ State.reset.supView = none

/-- Part reset, from NRESET in any state or from PART_RESET given to an IDLE engine: every part has its reset value; the ports hold
nothing, their lines' levels apart, and are CLOSED, but for P0 after PART_RESET, which opens again; the command never
completes; the pool, the model's own draw counter and the waiting commands alone are carried over (R126, R135, R149). That P0's
answer lines keep the DONE of PART_RESET is the model's reading (notes/assumptions/22.md). -/
def Obligations.PartResetRestoresEveryPart : Prop :=
  (∀ s : State, ∃ t, exec .nreset s = .next t ∧
    (∀ p, t.port p = { PortRec.cleared with lineHeld := (s.port p).lineHeld }) ∧
    t = { State.reset with
            nreset := true, ports := t.ports, poolData := t.poolData, poolParity := t.poolParity,
            freeDraws := t.freeDraws, pending := s.pending }) ∧
  ∀ s : State, commandable s → ∃ t, exec (.partReset 0 0) s = .next t ∧
    (∀ p, t.port p =
      { PortRec.cleared with
          lineHeld := (s.port p).lineHeld
          state := if p = 0 then .opened else .closed
          answer := if p = 0 then .done [] else .none }) ∧
    t = { State.reset with
            ports := t.ports, poolData := t.poolData, poolParity := t.poolParity, freeDraws := t.freeDraws,
            pending := s.pending }

/-- What part reset, by NRESET or by PART_RESET, leaves of the pool (R110, R149): with no write under way every byte and its
parity; otherwise at most the enabled lanes of the word under way change, each of them to the byte being written or to data and
parity that do not agree. Which of these it is holds for every choice of the free values (notes/assumptions/13.md).
That lane i is bits 8i+7 to 8i of a word
is the model's choice, DESIGN CHOICE, unsafe
(notes/assumptions/31.md). -/
def Obligations.PartResetTearsOneWordAtMost : Prop :=
  (∀ s : State, ∃ t, exec .nreset s = .next t ∧ tornWord s t) ∧
  ∀ s : State, commandable s → ∃ t, exec (.partReset 0 0) s = .next t ∧ tornWord s t

/-- The reset lines and the release of NRESET. A port's line asserted: an OPEN port begins to close with cause LINE, a CLOSING
one goes on from its stage with cause LINE, a CLOSED one stays so, and no answer is driven from then on. A release changes its
level alone, but for P0: while CLOSED it opens in the event that leaves both its line and NRESET released (R123, R126, R127,
R135). That the first stage ends in its own event, so that the second is shown, is the model's reading
(notes/assumptions/8.md). -/
def Obligations.ResetLinesActOnPortState : Prop :=
  (∀ (p : Port) (s : State), exec (.portResetLineAssert p) s = .next (s.setPort p
    { s.port p with
        lineHeld := true
        answer := .none
        state := match (s.port p).state with
          | .closed => .closed
          | .opened => .closing .line .second
          | .closing _ st => .closing .line st })) ∧
  (∀ s : State, exec .nresetRelease s = .next
    (if (s.port 0).state = .closed ∧ (s.port 0).lineHeld = false then
      { s.setPort 0 { s.port 0 with state := .opened } with nreset := false }
     else { s with nreset := false })) ∧
  (∀ (p : Port) (s : State), p ≠ 0 →
    exec (.portResetLineRelease p) s = .next (s.setPort p { s.port p with lineHeld := false })) ∧
  ∀ s : State, exec (.portResetLineRelease 0) s = .next (s.setPort 0
    { s.port 0 with
        lineHeld := false
        state := if (s.port 0).state = .closed ∧ s.nreset = false then .opened else (s.port 0).state })

/-! ## The lease clock (R112 to R117) -/

/-- The prescale underflow reloads its counter and sends one pulse: the tick counter falls, or at zero its underflow is due. A
stopped clock does not move. A tick still due is taken first, as LEASE_TICK takes it, and the pulse then goes on from there.
That the command stands for the cycles up to the underflow, and that a tick still due is taken first, are the model's choices (notes/assumptions/3.md). -/
def Obligations.PrescaleUnderflowPulses : Prop :=
  ∀ s : State,
    (¬clockOn s → exec .prescaleUnderflow s = .next s) ∧
    (clockOn s → s.tickDue = false → s.tickCounter ≠ 0 →
      exec .prescaleUnderflow s =
        .next { s with prescaleCounter := s.prescaleDiv, tickCounter := s.tickCounter - 1 }) ∧
    (clockOn s → s.tickDue = false → s.tickCounter = 0 →
      exec .prescaleUnderflow s = .next { s with prescaleCounter := s.prescaleDiv, tickDue := true }) ∧
    (clockOn s → s.tickDue = true →
      (∃ u, exec .leaseTick s = .next u ∧ u.tickDue = false ∧ clockOn u ∧
        exec .prescaleUnderflow s = exec .prescaleUnderflow u) ∧
      ∃ t, exec .prescaleUnderflow s = .next t ∧ t.leaseTime = s.leaseTime + 1 ∧ t.prescaleCounter = s.prescaleDiv ∧
        t.tickCounter = s.tickDiv - (if s.tickDiv = 0 then 0 else 1) ∧ t.tickDue = decide (s.tickDiv = 0))

/-- A lease tick with none waiting: LEASE_TIME rises by one, the tick counter is reloaded, every HELD term, RECALLED grace,
timed orphan counter and collect counter falls by one, and where one would end the tick waits for the event that ends it. The
rest of the machine stays. Where an earlier tick still waits, every event of it is taken first and the tick then goes on from
there, so that none is lost (R64, R74, R81, R112, R116, R117, R147). The waiting is the model's choice
(notes/assumptions/4.md), as are the moment at which an earlier tick is taken (notes/assumptions/5.md), what becomes of one at an
entry that leaves its state meanwhile (DESIGN CHOICE, unsafe, notes/assumptions/6.md) and the reload of the prescale counter
(notes/assumptions/3.md). -/
def Obligations.LeaseTickCountsDown : Prop :=
  (∀ s : State, ¬clockOn s → exec .leaseTick s = .next s) ∧
  (∀ s : State, clockOn s →
    ∃ u, ticksTaken s u ∧ settled u ∧ clockOn u ∧ exec .leaseTick s = exec .leaseTick u) ∧
  ∀ s : State, clockOn s → settled s →
    ∃ t, exec .leaseTick s = .next t ∧
      (∀ e, t.entry e = tickedEntry (s.entry e)) ∧
      (∀ p, t.port p = { s.port p with slots := (t.port p).slots }) ∧
      (∀ p k, t.slot p k = tickedSlot (s.slot p k)) ∧
      t = { s with
              entries := t.entries, ports := t.ports, leaseTime := s.leaseTime + 1, tickCounter := s.tickDiv,
              tickDue := false, prescaleCounter := if s.tickDue = true then s.prescaleCounter else s.prescaleDiv }

/-- The end of a term: the tick that waits at the entry is taken there. The port's HELD holding becomes RECALLED with a fresh
grace if the entry is contested and OVERDUE if it is not, or counts down if it was renewed meanwhile; every other holding of
the entry is dealt with in the same event, with RECALL and REVOKE notices, and nothing else changes (R74, R76, R81, R82, R90).
That the tick waits at the entry until this event is the model's choice, DESIGN CHOICE, unsafe (notes/assumptions/4.md). -/
def Obligations.TermEndMovesHoldingOn : Prop :=
  ∀ (e : EntryId) (p : Port) (s : State),
    (s.entry e).tickDue = true → s.tickEnable = true → (s.entry e).state = .live →
    (s.entry e).holdingState p = some .held →
    ∃ t, exec (.termEnd e p) s = .next t ∧
      becomes s t e { s.entry e with tickDue := false, holdings := afterTick s (s.entry e) } s.port
        (tickMarks (s.entry e)) ∧
      ∀ h ∈ (s.entry e).holdingOf p,
        (t.entry e).holdingOf p = some
          (if 1 < h.term then { h with term := h.term - 1 }
           else if (s.entry e).contested = true then
             { h with state := .recalled, term := 0, grace := s.graceTicks, forced := false }
           else { h with state := .overdue, term := 0, grace := 0, forced := false })

/-- The end of a grace: the tick that waits at the entry is taken there. A RECALLED holding with one tick of grace left is
revoked, others count down, and if no holding is left the entry leaves LIVE (R17, R81, R82). That the tick waits at the entry
until this event is the model's choice, DESIGN CHOICE, unsafe (notes/assumptions/4.md). -/
def Obligations.GraceEndRevokesHolding : Prop :=
  ∀ (e : EntryId) (p : Port) (s : State),
    (s.entry e).tickDue = true → s.tickEnable = true → (s.entry e).state = .live → portsRise (s.entry e).holdings →
    (s.entry e).holdingState p = some .recalled →
    ∃ t, exec (.graceEnd e p) s = .next t ∧
      (if afterTick s (s.entry e) = [] then leaves s t e s.port (tickMarks (s.entry e))
       else becomes s t e { s.entry e with tickDue := false, holdings := afterTick s (s.entry e) } s.port
         (tickMarks (s.entry e))) ∧
      ∀ h ∈ (s.entry e).holdingOf p,
        (h.grace ≤ 1 → (t.entry e).holdingOf p = none) ∧
        (1 < h.grace → (t.entry e).holdingOf p = some { h with grace := h.grace - 1 })

/-- Lapse: the tick that waits at the slot is taken there. A collect counter of 1 lapses the grant, which is given back with
the LAPSE notice; a greater one falls by one (R64 to R68). That the tick waits at the slot until this event is the model's
choice, DESIGN CHOICE, unsafe (notes/assumptions/4.md), and so is what becomes of a tick that waits at the grant's entry, DESIGN
CHOICE, unsafe (notes/assumptions/6.md). -/
def Obligations.LapseGivesGrantBack : Prop :=
  ∀ (p : Port) (k : SlotNo) (d : Descriptor) (g : Grant) (s : State),
    s.slot p k = .granted d g → g.tickDue = true → s.tickEnable = true →
    (1 < g.collect →
      exec (.lapse p k) s = .next (s.setPort p (withSlot (s.port p) k
        (.granted d { g with collect := g.collect - 1, tickDue := false })))) ∧
    (g.collect ≤ 1 →
      ∃ t, exec (.lapse p k) s = .next t ∧
        givesBack s t p g (portsBut s p (withSlot (s.port p) k .empty)) (markAt p 0x02))

/-- Orphan expiry: the tick that waits at an ORPHANED entry is taken there. A timed counter of 1 discards the record and the
entry becomes DRAINING or FREE, with P0's ORPHAN_END notice; a greater one falls by one; an untimed one is not counted (R18,
R147). That the tick waits at the entry until this event is the model's choice, DESIGN CHOICE, unsafe
(notes/assumptions/4.md). -/
def Obligations.OrphanExpiryDiscardsRecord : Prop :=
  ∀ (e : EntryId) (o : OrphanRecord) (s : State),
    (s.entry e).tickDue = true → s.tickEnable = true → (s.entry e).state = .orphaned → (s.entry e).orphan = some o →
    (o.timed = false → exec (.orphanExpiry e) s = .next (s.setEntry e { s.entry e with tickDue := false })) ∧
    (o.timed = true → 1 < o.counter →
      exec (.orphanExpiry e) s = .next (s.setEntry e
        { s.entry e with tickDue := false, orphan := some { o with counter := o.counter - 1 } })) ∧
    (o.timed = true → o.counter ≤ 1 →
      ∃ t, exec (.orphanExpiry e) s = .next t ∧ leaves s t e s.port (markAt 0 0x80))

/-- A command of a block inside the part whose event is not due changes nothing: the model's choice
(notes/assumptions/1.md, 4.md, 7.md, 8.md, 28.md). Nor does a transaction presented at a port that takes none, with NRESET or
its line asserted or a read of it outstanding (R95, R123, R159): that such a transaction leaves the queue without effect is the
model's choice too (notes/assumptions/9.md). -/
def Obligations.EventsNotDueChangeNothing : Prop :=
  (∀ (c : Instr) (p : Port) (s : State), c.presenter = some p → c.wellFormed = true → ¬listens s p → exec c s = .next s) ∧
  ∀ (s : State) (e : EntryId) (p : Port) (k : SlotNo) (m : MemAnswer),
    (((s.entry e).tickDue = false ∨ s.tickEnable = false) →
      exec (.termEnd e p) s = .next s ∧ exec (.graceEnd e p) s = .next s ∧ exec (.orphanExpiry e) s = .next s) ∧
    (((s.slot p k).tickDue = false ∨ s.tickEnable = false) → exec (.lapse p k) s = .next s) ∧
    (s.evalCalled = false → exec .evaluation s = .next s) ∧
    (s.headKind p ≠ some .release → exec (.release p) s = .next s) ∧
    (s.headKind p ≠ some .renew → exec (.renew p) s = .next s) ∧
    (s.memPort = none → exec (.poolWordReady m) s = .next s) ∧
    ((s.memPort ≠ none ∨ ∀ q, s.offered q = none) → exec .burstStart s = .next s) ∧
    ((s.port p).read = none ∨ (s.port p).writeBuffer ≠ [] → exec (.heldReadJudge p) s = .next s) ∧
    (s.closeStage p ≠ some .second → exec (.closeSecondStage p) s = .next s) ∧
    (s.closeStage p ≠ some .third → exec (.closeThirdStage p) s = .next s) ∧
    (s.closeStage p ≠ some .fourth → exec (.closeFourthStage p) s = .next s) ∧
    (s.closeStage p ≠ some .fifth ∨ (s.port p).writeBuffer ≠ [] ∨ (s.port p).read ≠ none →
      exec (.closeSixthStage p) s = .next s)

/-! ## Guarded access to the pool (R15, R94 to R109, R168) -/

/-- The covering entry of a port at a page is an entry that is not FREE, whose range contains the page and in which the port
has a holding; there is none exactly when no entry is such, and while a port's own ranges are apart there is no other (R15,
R29). -/
def Obligations.CoveringEntryIsTheOne : Prop :=
  ∀ (s : State) (p : Port) (page : Nat),
    (∀ e, s.covering p page = some e →
      (s.entry e).state ≠ .free ∧ (s.entry e).range.contains page = true ∧ ((s.entry e).holdingOf p).isSome = true) ∧
    (s.covering p page = none ↔
      ∀ e, ¬((s.entry e).state ≠ .free ∧ (s.entry e).range.contains page = true ∧
        ((s.entry e).holdingOf p).isSome = true)) ∧
    (OwnRangesApart s → ∀ e, (s.entry e).state ≠ .free → (s.entry e).range.contains page = true →
      ((s.entry e).holdingOf p).isSome = true → s.covering p page = some e)

/-- A pool write is judged in the order of Table 23: PORT_CLOSED, RETRY for a full buffer, OUT_OF_POOL, ALIGN, NOT_HELD, MODE;
one that passes is answered DONE, enters the write buffer and is counted in flight, and nothing else changes (R96 to R99,
R101, R121). -/
def Obligations.PoolWriteJudged : Prop :=
  ∀ (p : Port) (a : BitVec 22) (be : BitVec 4) (ws : List Word) (s : State) (r : PortRec) (page : Nat),
    listens s p → 1 ≤ ws.length → ws.length ≤ 16 → r = s.port p → page = 4 * a.toNat / 1024 →
    (r.state ≠ .opened → exec (.poolWrite p a be ws) s = .next (s.setPort p (answered r (.refuse .portClosed)))) ∧
    (r.state = .opened → 2 ≤ r.writeBuffer.length →
      exec (.poolWrite p a be ws) s = .next (s.setPort p (answered r .retry))) ∧
    (r.state = .opened → r.writeBuffer.length < 2 → s.poolPages.toNat * 1024 ≤ 4 * a.toNat →
      exec (.poolWrite p a be ws) s = .next (s.setPort p (refusedPort r .outOfPool (.write (poolAddr a))))) ∧
    (r.state = .opened → r.writeBuffer.length < 2 → 4 * a.toNat < s.poolPages.toNat * 1024 →
      1024 < 4 * a.toNat % 1024 + 4 * ws.length →
      exec (.poolWrite p a be ws) s = .next (s.setPort p (refusedPort r .align (.write (poolAddr a))))) ∧
    (r.state = .opened → r.writeBuffer.length < 2 → 4 * a.toNat < s.poolPages.toNat * 1024 →
      4 * a.toNat % 1024 + 4 * ws.length ≤ 1024 →
      (s.covering p page = none →
        exec (.poolWrite p a be ws) s = .next (s.setPort p (refusedPort r .notHeld (.write (poolAddr a))))) ∧
      ∀ e, s.covering p page = some e →
        ((s.entry e).holdingState p = some .awarded →
          exec (.poolWrite p a be ws) s = .next (s.setPort p (refusedPort r .notHeld (.write (poolAddr a))))) ∧
        ((s.entry e).holdingState p ≠ some .awarded → (s.entry e).mode = .shared →
          exec (.poolWrite p a be ws) s = .next (s.setPort p (refusedPort r .mode (.write (poolAddr a))))) ∧
        ((s.entry e).holdingState p ≠ some .awarded → (s.entry e).mode = .exclusive →
          exec (.poolWrite p a be ws) s = .next
            ((s.setEntry e { s.entry e with inFlight := (s.entry e).inFlight + 1 }).setPort p
              { r with
                  answer := .done []
                  writeBuffer := r.writeBuffer ++ [{ addr := a, enables := be, words := ws, entry := e }] })))

/-- A pool read is held while the port's write buffer is not empty, and is otherwise judged in the order of Table 23; one that
passes is counted in flight and waits for the memory (R96 to R99, R103, R121). -/
def Obligations.PoolReadJudged : Prop :=
  ∀ (p : Port) (a : BitVec 22) (be len : BitVec 4) (s : State) (r : PortRec) (page : Nat),
    listens s p → r = s.port p → page = 4 * a.toNat / 1024 →
    (r.state ≠ .opened → exec (.poolRead p a be len) s = .next (s.setPort p (answered r (.refuse .portClosed)))) ∧
    (r.state = .opened → r.writeBuffer ≠ [] →
      exec (.poolRead p a be len) s = .next (s.setPort p
        { r with answer := .none, read := some { addr := a, enables := be, len := len, stage := .held } })) ∧
    (r.state = .opened → r.writeBuffer = [] → s.poolPages.toNat * 1024 ≤ 4 * a.toNat →
      exec (.poolRead p a be len) s = .next (s.setPort p (refusedPort r .outOfPool (.read (poolAddr a))))) ∧
    (r.state = .opened → r.writeBuffer = [] → 4 * a.toNat < s.poolPages.toNat * 1024 →
      1024 < 4 * a.toNat % 1024 + 4 * (len.toNat + 1) →
      exec (.poolRead p a be len) s = .next (s.setPort p (refusedPort r .align (.read (poolAddr a))))) ∧
    (r.state = .opened → r.writeBuffer = [] → 4 * a.toNat < s.poolPages.toNat * 1024 →
      4 * a.toNat % 1024 + 4 * (len.toNat + 1) ≤ 1024 →
      (s.covering p page = none →
        exec (.poolRead p a be len) s = .next (s.setPort p (refusedPort r .notHeld (.read (poolAddr a))))) ∧
      ∀ e, s.covering p page = some e →
        ((s.entry e).holdingState p = some .awarded →
          exec (.poolRead p a be len) s = .next (s.setPort p (refusedPort r .notHeld (.read (poolAddr a))))) ∧
        ((s.entry e).holdingState p ≠ some .awarded →
          exec (.poolRead p a be len) s = .next
            ((s.setEntry e { s.entry e with inFlight := (s.entry e).inFlight + 1 }).setPort p
              { r with
                  answer := .none
                  read := some { addr := a, enables := be, len := len, stage := .accepted e } })))

/-- A held read is judged from the second step of Table 23 once the write buffer is empty, whatever the port's state; its
refusal is recorded, and driven unless the port closes by its line (R96 to R99, R103, R131). That a refusal that is not driven
is recorded all the same is read from R131 and R157 (notes/assumptions/21.md). -/
def Obligations.HeldReadJudged : Prop :=
  ∀ (p : Port) (a : BitVec 22) (be len : BitVec 4) (s : State) (r : PortRec) (page : Nat),
    r = s.port p → r.read = some { addr := a, enables := be, len := len, stage := .held } → r.writeBuffer = [] →
    page = 4 * a.toNat / 1024 →
    (s.poolPages.toNat * 1024 ≤ 4 * a.toNat → exec (.heldReadJudge p) s = .next (s.setPort p (readRefusedPort r .outOfPool a))) ∧
    (4 * a.toNat < s.poolPages.toNat * 1024 → 1024 < 4 * a.toNat % 1024 + 4 * (len.toNat + 1) →
      exec (.heldReadJudge p) s = .next (s.setPort p (readRefusedPort r .align a))) ∧
    (4 * a.toNat < s.poolPages.toNat * 1024 → 4 * a.toNat % 1024 + 4 * (len.toNat + 1) ≤ 1024 →
      (s.covering p page = none → exec (.heldReadJudge p) s = .next (s.setPort p (readRefusedPort r .notHeld a))) ∧
      ∀ e, s.covering p page = some e →
        ((s.entry e).holdingState p = some .awarded → exec (.heldReadJudge p) s = .next (s.setPort p (readRefusedPort r .notHeld a))) ∧
        ((s.entry e).holdingState p ≠ some .awarded →
          exec (.heldReadJudge p) s = .next
            ((s.setEntry e { s.entry e with inFlight := (s.entry e).inFlight + 1 }).setPort p
              { r with read := some { addr := a, enables := be, len := len, stage := .accepted e } })))

/-- A port offers the head of its write buffer or its accepted read, and a free memory port starts the burst of the first port
that offers one, from the pointer on; the pointer then names the port after it (R105). -/
def Obligations.BurstStartRotates : Prop :=
  (∀ (s : State) (p : Port) (w : WriteBurst) (rest : List WriteBurst), (s.port p).writeBuffer = w :: rest →
    s.offered p = some
      { port := p, kind := .write w.words, addr := w.addr, enables := w.enables, entry := w.entry, done := 0, got := [],
        parityError := false }) ∧
  (∀ (s : State) (p : Port) (r : PortRead) (e : EntryId), (s.port p).writeBuffer = [] → (s.port p).read = some r →
    r.stage = .accepted e →
    s.offered p = some
      { port := p, kind := .read r.len, addr := r.addr, enables := r.enables, entry := e, done := 0, got := [],
        parityError := false }) ∧
  (∀ (s : State) (p : Port), (s.port p).writeBuffer = [] → (∀ r ∈ (s.port p).read, r.stage = .held) → s.offered p = none) ∧
  ∀ (s : State) (i : Port) (b : ActiveBurst), s.memPort = none → s.offered (s.pointer + i) = some b →
    (∀ j : Port, j < i → s.offered (s.pointer + j) = none) →
    exec .burstStart s = .next { s with memPort := some b, pointer := s.pointer + i + 1 }

/-- Ready for a word that is not the burst's last: a write stores its word in the enabled lanes with odd parity and changes no
other byte; a read takes the enabled lanes, zero in the others, and notes a byte that fails its parity check. Nothing else
changes but the burst's own progress. Until then the memory port's pins carry the access under way: the word address, and for a
write its word, odd parity and byte write enables, each line low while set or active; with NRESET asserted chip enable and both
strobes are inactive (R102, R104, R106, R108, R109, R168, R169). That they are inactive too while no access is under way, and
that the byte write enables are clear then and during a read, is the model's choice (notes/assumptions/30.md).
That lane i is bits 8i+7 to 8i of a word, with its parity and its write enable at bit i of their lines,
is the model's choice, DESIGN CHOICE, unsafe
(notes/assumptions/31.md). -/
def Obligations.WordReadyCarriesOneWord : Prop :=
  (∀ (s : State) (b : ActiveBurst), s.memPort = some b → s.nreset = false →
    s.memPins.addr = some (b.addr + BitVec.ofNat 22 b.done) ∧ s.memPins.cen = false ∧
    (∀ len, b.kind = .read len → s.memPins.oen = false ∧ s.memPins.wen = true ∧ s.memPins.bwen = 0xF) ∧
    ∀ ws w, b.kind = .write ws → ws[b.done]? = some w →
      s.memPins.oen = true ∧ s.memPins.wen = false ∧ s.memPins.data = some w ∧
      (∀ i : Fin 4, s.memPins.bwen.getLsbD i.val = !b.enables.getLsbD i.val) ∧
      ∃ q : BitVec 4, s.memPins.parity = some q ∧
        ∀ i : Fin 4, q.getLsbD i.val = parityBit (w.extractLsb' (8 * i.val) 8)) ∧
  (∀ s : State, s.memPort = none ∨ s.nreset = true →
    s.memPins = { cen := true, wen := true, oen := true, bwen := 0xF, addr := none, data := none, parity := none }) ∧
  (∀ (m : MemAnswer) (b : ActiveBurst) (ws : List Word) (w : Word) (s : State),
    s.memPort = some b → b.kind = .write ws → ws[b.done]? = some w → b.done + 1 < ws.length →
    ∃ t, exec (.poolWordReady m) s = .next t ∧ storesWord s t (byteAddr b.wordAddr) b.enables w ∧
      t = { s with memPort := some { b with done := b.done + 1 }, poolData := t.poolData, poolParity := t.poolParity }) ∧
  ∀ (m : MemAnswer) (b : ActiveBurst) (len : BitVec 4) (s : State),
    s.memPort = some b → b.kind = .read len → b.done < len.toNat →
    ∃ w err, exec (.poolWordReady m) s = .next
        { s with memPort := some { b with done := b.done + 1, got := b.got ++ [w], parityError := b.parityError || err } } ∧
      (∀ i : Fin 4, w.extractLsb' (8 * i.val) 8 =
        if b.enables.getLsbD i.val = true then s.returnedByte m (byteAddr b.wordAddr) i else 0) ∧
      (err = true ↔ ∃ i : Fin 4, b.enables.getLsbD i.val = true ∧
        s.returnedParity m (byteAddr b.wordAddr) i ≠ parityBit (s.returnedByte m (byteAddr b.wordAddr) i))

/-- Ready for a burst's last word: the memory port is free and the count of the burst's entry falls, which frees a drained
entry; a write leaves the head of its buffer; a read is answered DONE with its words, or refused with POOL_PARITY if a byte
failed, and neither is driven while the port closes by its line (R14, R18, R104, R106, R109, R131, R157). That a refusal that
is not driven is recorded all the same is read from R131 and R157, DEDUCED, unsafe (notes/assumptions/21.md).
That lane i is bits 8i+7 to 8i of a word
is the model's choice, DESIGN CHOICE, unsafe
(notes/assumptions/31.md). -/
def Obligations.LastWordFinishesBurst : Prop :=
  (∀ (m : MemAnswer) (b : ActiveBurst) (ws : List Word) (w : Word) (s : State),
    s.memPort = some b → b.kind = .write ws → ws[b.done]? = some w → b.done + 1 = ws.length →
    ∃ t, exec (.poolWordReady m) s = .next t ∧ storesWord s t (byteAddr b.wordAddr) b.enables w ∧
      burstEnds { s with memPort := none, poolData := t.poolData, poolParity := t.poolParity } t b.entry
        (portsBut s b.port { s.port b.port with writeBuffer := (s.port b.port).writeBuffer.tail }) noMarks) ∧
  ∀ (m : MemAnswer) (b : ActiveBurst) (len : BitVec 4) (s : State),
    s.memPort = some b → b.kind = .read len → b.done = len.toNat →
    ∃ t w err, exec (.poolWordReady m) s = .next t ∧
      (∀ i : Fin 4, w.extractLsb' (8 * i.val) 8 =
        if b.enables.getLsbD i.val = true then s.returnedByte m (byteAddr b.wordAddr) i else 0) ∧
      (err = true ↔ b.parityError = true ∨ ∃ i : Fin 4, b.enables.getLsbD i.val = true ∧
        s.returnedParity m (byteAddr b.wordAddr) i ≠ parityBit (s.returnedByte m (byteAddr b.wordAddr) i)) ∧
      burstEnds { s with memPort := none } t b.entry
        (portsBut s b.port
          (if err = true then readRefusedPort (s.port b.port) .poolParity b.addr
           else readEndedPort (s.port b.port) (.done (b.got ++ [w])))) noMarks

/-- The pool's bytes and parity change at the memory port and at part reset alone: in no other command (R98, R105, R110,
R168). -/
def Obligations.PoolChangesAtMemoryPortAlone : Prop :=
  ∀ (c : Instr) (s t : State), exec c s = .next t → (∀ m, c ≠ .poolWordReady m) → c ≠ .nreset →
    (s.nreset = false → (s.port 0).state = .opened → s.engine = none →
      (∀ len, c ≠ .partReset 0 len) ∧ (∀ len, c ≠ .unknownCommand 0 len 8) ∧
      ∀ len w, c ≠ .registerWrite 0 len Reg.command.addr w) →
    t.poolData = s.poolData ∧ t.poolParity = s.poolParity

/-! ## Grants (R6, R13, R33, R42 to R58) -/

/-- An evaluation that is called for walks the queue from the oldest claim to the newest: each is granted if it is grantable when
it is reached, behind the claims still before it, and stays otherwise. Every claim that is gone from the queue is GRANTED in
its slot with its AWARDED holding in the entry it names, no other slot or entry changes, and no claim that could be granted is
left; those that stay keep their order. A claim is grantable when no entry in use and no earlier claim conflicts with it and it
can join a lease or an entry is FREE (R3, R33, R42 to R48, R51). That the call is kept in evalCalled until this command is the
model's choice (notes/assumptions/7.md). -/
def Obligations.EvaluationLeavesNothingGrantable : Prop :=
  (∀ a b : PageRange, a.count ≠ 0 → b.count ≠ 0 → (a.overlaps b = true ↔ ∃ page : Nat,
    (a.base.toNat ≤ page ∧ page < a.base.toNat + a.count.toNat) ∧ b.base.toNat ≤ page ∧ page < b.base.toNat + b.count.toNat)) ∧
  (∀ c d : Descriptor, c.conflicts d = true ↔
    c.range.overlaps d.range = true ∧ (c.mode = .exclusive ∨ d.mode = .exclusive)) ∧
  (∀ (x : Entry) (d : Descriptor), x.conflicts d = true ↔
    x.state ≠ .free ∧ x.range.overlaps d.range = true ∧
      (x.state = .orphaned ∨ x.mode = .exclusive ∨ d.mode = .exclusive)) ∧
  (∀ (s : State) (earlier : List Descriptor) (p : Port) (d : Descriptor), s.grantable earlier p d = true ↔
    (∀ e, (s.entry e).conflicts d = false) ∧ (∀ c ∈ earlier, c.conflicts d = false) ∧
    ((∃ e, joinable s p d e) ∨ ∃ e, (s.entry e).state = .free)) ∧
  (∀ (s : State) (c : ClaimId) (d : Descriptor), s.claimAt c = some d ↔ s.slot c.port c.slot = .waiting d) ∧
  (∀ (s : State) (c : ClaimId) (d : Descriptor) (before behind : List ClaimId), s.waitQueue = before ++ c :: behind →
    c ∉ before → s.claimAt c = some d →
    (s.grantable (before.filterMap s.claimAt) c.port d = true → s.walkStep c = s.grantClaim c.port c.slot d) ∧
    (s.grantable (before.filterMap s.claimAt) c.port d = false → s.walkStep c = s)) ∧
  ∀ s : State, QueueLaw s → s.evalCalled = true →
    ∃ t, exec .evaluation s = .next t ∧ t = s.waitQueue.foldl State.walkStep { s with evalCalled := false } ∧
      NothingGrantable t ∧ t.waitQueue.Sublist s.waitQueue ∧
      t = { s with entries := t.entries, ports := t.ports, waitQueue := t.waitQueue, evalCalled := false } ∧
      (∀ p k, (⟨p, k⟩ ∉ s.waitQueue ∨ ⟨p, k⟩ ∈ t.waitQueue) → t.slot p k = s.slot p k) ∧
      (∀ p k, ⟨p, k⟩ ∈ s.waitQueue → ⟨p, k⟩ ∉ t.waitQueue →
        ∃ d e, s.slot p k = .waiting d ∧ grantedTo t p k d e) ∧
      ∀ e, t.entry e = s.entry e ∨
        ∃ p k d, ⟨p, k⟩ ∈ s.waitQueue ∧ s.slot p k = .waiting d ∧ grantedTo t p k d e

/-- A grant makes both halves in one event: the AWARDED holding in a new or joined entry and the GRANTED slot, each with the
resolved term, and the GRANT notice; the claim leaves the queue, and a new lease is contested if a claim still waiting
conflicts with it. The term is the requested one, or the port's default for 0, cut to its cap. The entry is that of a lease the
claim can join, or else the lowest-numbered FREE one (R8, R13, R44, R51 to R55). Which of several joinable leases is joined, in
states in which one port's claim could join more than one, is the model's choice (notes/assumptions/26.md). -/
def Obligations.GrantMakesBothHalves : Prop :=
  (∀ (s : State) (e : EntryId), s.lowestFree = some e ↔
    (s.entry e).state = .free ∧ ∀ f, f < e → (s.entry f).state ≠ .free) ∧
  (∀ s : State, s.lowestFree = none ↔ ∀ e, (s.entry e).state ≠ .free) ∧
  (∀ (s : State) (p : Port) (d : Descriptor) (e : EntryId), s.joinTarget p d = some e ↔
    joinable s p d e ∧ ∀ f, f < e → ¬joinable s p d f) ∧
  (∀ (s : State) (p : Port) (d : Descriptor), s.joinTarget p d = none ↔ ∀ e, ¬joinable s p d e) ∧
  (∀ (terms : PortTerms) (requested : BitVec 16), terms.resolve requested =
    if terms.cap < (if requested = 0 then terms.default else requested) then (terms.cap, true)
    else ((if requested = 0 then terms.default else requested), false)) ∧
  (∀ g : BitVec 8, nextGeneration g = (if g = 255 then 1 else g + 1) ∧ nextGeneration g ≠ 0) ∧
  ∀ (s : State) (p : Port) (k : SlotNo) (d : Descriptor) (e : EntryId) (term : BitVec 16) (clamped : Bool),
    (s.termsOf p).resolve d.term = (term, clamped) →
    (s.joinTarget p d = none → s.lowestFree = some e →
      ∃ t, s.grantClaim p k d = t ∧ othersKept s t e ∧
        t = { s with entries := t.entries, ports := t.ports, waitQueue := s.waitQueue.erase ⟨p, k⟩ } ∧
        t.entry e =
          { state := .live, generation := nextGeneration (s.entry e).generation, mode := d.mode, range := d.range,
            holdings := [{ port := p, state := .awarded, term := term, granted := term, grace := 0, forced := false }],
            inFlight := 0,
            contested := (s.claims (s.waitQueue.erase ⟨p, k⟩)).any (fun c => c.conflicts d),
            orphan := none, tickDue := false } ∧
        ∀ q, t.port q = portsBut s p (flagsSet (withSlot (s.port p) k (.granted d
          { handle := ⟨e, nextGeneration (s.entry e).generation⟩, kind := .new, term := term, clamped := clamped,
            collect := s.collectTicks, tickDue := false })) 0x01) q) ∧
    (s.joinTarget p d = some e →
      ∃ t, s.grantClaim p k d = t ∧ othersKept s t e ∧
        t = { s with entries := t.entries, ports := t.ports, waitQueue := s.waitQueue.erase ⟨p, k⟩ } ∧
        t.entry e =
          { s.entry e with holdings := insertHolding ⟨p, .awarded, term, term, 0, false⟩ (s.entry e).holdings } ∧
        ∀ q, t.port q = portsBut s p (flagsSet (withSlot (s.port p) k (.granted d
          { handle := ⟨e, (s.entry e).generation⟩, kind := .joined, term := term, clamped := clamped,
            collect := s.collectTicks, tickDue := false })) 0x01) q)

/-! ## Claims (R24 to R40, R59 to R68) -/

/-- A write of SLOT_DESC_B that fails a check is refused with the code of the first that fails, in the order SLOT_BUSY,
BAD_DESCRIPTOR, SELF_OVERLAP, and changes nothing but the port's answer, fault record and FAULT notice (R27 to R29). -/
def Obligations.ClaimRefusedByThreeChecks : Prop :=
  ∀ (p : Port) (k : SlotNo) (w : Word) (s : State) (range : PageRange) (place : FaultPlace), serves s p →
    range = (s.port p).staging.look k → place = controlPlace (Reg.slotDescB k).addr →
    (s.slot p k ≠ .empty →
      exec (.slotDescB p 0 k w) s = .next (s.setPort p (refusedPort (s.port p) .slotBusy place))) ∧
    (s.slot p k = .empty → (range.count = 0 ∨ s.poolPages.toNat < range.base.toNat + range.count.toNat) →
      exec (.slotDescB p 0 k w) s = .next (s.setPort p (refusedPort (s.port p) .badDescriptor place))) ∧
    (s.slot p k = .empty → range.count ≠ 0 → range.base.toNat + range.count.toNat ≤ s.poolPages.toNat →
      ((∃ e, ((s.entry e).holdingOf p).isSome = true ∧ (s.entry e).range.overlaps range = true) ∨
       ∃ k', ∃ d ∈ liveClaim (s.slot p k'), d.range.overlaps range = true) →
      exec (.slotDescB p 0 k w) s = .next (s.setPort p (refusedPort (s.port p) .selfOverlap place)))

/-- A write of SLOT_DESC_B that passes its checks makes the claim arrive in an evaluation of its own, behind the claims still
waiting after it: it is granted if it is grantable; otherwise a no-wait claim is DENIED with its cause and the GRANT notice,
and any other waits at the tail and contests the entries it conflicts with (R30 to R32, R48, R50, R55, R78). -/
def Obligations.ClaimArrivesInOneOfThreeWays : Prop :=
  ∀ (p : Port) (k : SlotNo) (w : Word) (s u : State) (d : Descriptor), serves s p → s.slot p k = .empty →
    d.range.valid s.poolPages = true → s.overlapsOwn p d.range = false →
    d = descriptorOf ((s.port p).staging.look k) w → u = s.walk →
    (u.grantable (u.claims u.waitQueue) p d = true →
      exec (.slotDescB p 0 k w) s = .next ((u.grantClaim p k d).answer p (.done []))) ∧
    (u.grantable (u.claims u.waitQueue) p d = false → d.noWait = true →
      exec (.slotDescB p 0 k w) s = .next (u.setPort p (answered (flagsSet (withSlot (u.port p) k (.denied d
        (if (∃ e, (u.entry e).conflicts d = true) ∨ (∃ c ∈ u.claims u.waitQueue, c.conflicts d = true) then .conflict
         else .tableFull))) 0x01) (.done [])))) ∧
    (u.grantable (u.claims u.waitQueue) p d = false → d.noWait = false →
      ∃ t, exec (.slotDescB p 0 k w) s = .next t ∧
        t = { u with entries := t.entries, ports := t.ports, waitQueue := u.waitQueue ++ [⟨p, k⟩] } ∧
        (∀ e, t.entry e =
          if (u.entry e).conflicts d = true ∧ (u.entry e).contested = false then contestedEntry u.graceTicks (u.entry e)
          else u.entry e) ∧
        ∀ q, t.port q = flagsSet (portsBut u p (answered (withSlot (u.port p) k (.waiting d)) (.done [])) q)
          (if ∃ e, (u.entry e).conflicts d = true ∧ (u.entry e).contested = false ∧ (u.entry e).state = .live ∧
              ∃ h ∈ (u.entry e).holdings, h.port = q ∧ h.state = .overdue
           then 0x04 else 0))

/-- A write of SLOT_CANCEL acts by the slot's state: EMPTY is refused with NO_CLAIM; a WAITING claim leaves the queue, ends the
contest that was its alone and calls for an evaluation; a denial is emptied; a grant is given back with no LAPSE notice (R34,
R35, R36, R56, R66, R67, R79). What becomes of a tick that waits at the grant's entry is the model's choice, DESIGN CHOICE,
unsafe (notes/assumptions/6.md). -/
def Obligations.CancelActsBySlotState : Prop :=
  ∀ (p : Port) (k : SlotNo) (w : Word) (s : State), serves s p →
    (s.slot p k = .empty →
      exec (.slotCancel p 0 k w) s =
        .next (s.setPort p (refusedPort (s.port p) .noClaim (controlPlace (Reg.slotCancel k).addr)))) ∧
    (∀ d c, s.slot p k = .denied d c →
      exec (.slotCancel p 0 k w) s = .next (s.setPort p (answered (withSlot (s.port p) k .empty) (.done [])))) ∧
    (∀ d, s.slot p k = .waiting d →
      ∃ t, exec (.slotCancel p 0 k w) s = .next t ∧
        t = { s with entries := t.entries, ports := t.ports, waitQueue := s.waitQueue.erase ⟨p, k⟩, evalCalled := true } ∧
        (∀ e, t.entry e =
          if (s.entry e).conflicts d = true ∧
              (s.claims (s.waitQueue.filter fun c => c != ⟨p, k⟩)).any (fun c => (s.entry e).conflicts c) = false
          then uncontestedEntry (s.entry e) else s.entry e) ∧
        ∀ q, t.port q = portsBut s p (answered (withSlot (s.port p) k .empty) (.done [])) q) ∧
    ∀ d g, s.slot p k = .granted d g →
      ∃ t, exec (.slotCancel p 0 k w) s = .next t ∧
        givesBack s t p g (portsBut s p (answered (withSlot (s.port p) k .empty) (.done []))) noMarks

/-- A collect read of an EMPTY slot is refused with NO_CLAIM, one of a WAITING slot is answered RETRY, and one of a GRANTED slot
makes the holding HELD with its term, discards an adopted orphan's record, empties the slot and returns the grant word (R59 to
R61). -/
def Obligations.CollectTakesUpGrant : Prop :=
  ∀ (p : Port) (k : SlotNo) (s : State), serves s p →
    (s.slot p k = .empty →
      exec (.slotCollect p 0 k) s =
        .next (s.setPort p (refusedPort (s.port p) .noClaim (controlPlace (Reg.slotCollect k).addr)))) ∧
    (∀ d, s.slot p k = .waiting d → exec (.slotCollect p 0 k) s = .next (s.setPort p (answered (s.port p) .retry))) ∧
    ∀ d g, s.slot p k = .granted d g →
      exec (.slotCollect p 0 k) s = .next
        ((s.setEntry g.handle.entry
          { s.entry g.handle.entry with
              orphan := if g.kind = .adopted then none else (s.entry g.handle.entry).orphan
              holdings := (s.entry g.handle.entry).holdings.map fun h =>
                if h.port = p ∧ h.state = .awarded then { h with state := .held } else h }).setPort p
          (answered (withSlot (s.port p) k .empty) (.done [g.word])))

/-- R62: a collect read of a DENIED slot empties it and answers DONE with the denial word; the queue, the lease table, the
notices and the staging stay, and a cancel of the slot does the same but for the word in the answer. -/
def Obligations.DenialTakenUp : Prop :=
  ∀ (p : Port) (k : SlotNo) (w : Word) (d : Descriptor) (c : DenialCause) (s : State), serves s p →
    s.slot p k = .denied d c →
    exec (.slotCollect p 0 k) s = .next (s.setPort p (answered (withSlot (s.port p) k .empty) (.done [c.word]))) ∧
    exec (.slotCancel p 0 k w) s = .next (s.setPort p (answered (withSlot (s.port p) k .empty) (.done [])))

/-! ## The holding queue (R83 to R88) -/

/-- R84: a write of HOLD_QUEUE by an OPEN port appends the item and is answered DONE while fewer than 4 wait, and is answered
RETRY and changes nothing else when 4 do, until the application of the head item has made room; a read is answered DONE with
the count; a port that is not OPEN is refused with PORT_CLOSED and posts nothing. -/
def Obligations.HoldQueuePostsAndCounts : Prop :=
  ∀ (p : Port) (w : Word) (s : State), listens s p →
    ((s.port p).state = .opened → (s.port p).holdQueue.length < 4 →
      exec (.holdQueue p 0 w) s = .next (s.setPort p
        { s.port p with
            answer := .done []
            holdQueue := (s.port p).holdQueue ++ [if w.getLsbD 31 = true then
              { kind := .renew, handle := handleOf w, term := w.extractLsb' 0 16 }
              else { kind := .release, handle := handleOf w, term := 0 }] })) ∧
    ((s.port p).state = .opened → 4 ≤ (s.port p).holdQueue.length →
      exec (.holdQueue p 0 w) s = .next (s.setPort p (answered (s.port p) .retry))) ∧
    ((s.port p).state = .opened → (s.port p).holdQueue.length = 4 →
      ∃ t, (exec (.release p) s = .next t ∨ exec (.renew p) s = .next t) ∧ (t.port p).holdQueue.length = 3 ∧
        (t.port p).state = .opened) ∧
    ((s.port p).state = .opened → (s.port p).holdQueue.length ≤ 4 →
      exec (.controlWindowRead p 0 Reg.holdQueue.addr) s =
        .next (s.setPort p (answered (s.port p) (.done [BitVec.ofNat 32 (s.port p).holdQueue.length])))) ∧
    ((s.port p).state ≠ .opened →
      exec (.holdQueue p 0 w) s = .next (s.setPort p (answered (s.port p) (.refuse .portClosed))) ∧
      exec (.controlWindowRead p 0 Reg.holdQueue.addr) s =
        .next (s.setPort p (answered (s.port p) (.refuse .portClosed))))

/-- A RELEASE at the head of the queue is judged by Table 21 and leaves the queue: a handle that is not current is a
STALE_HANDLE fault, a collected holding is removed, and anything else is dropped (R9, R17, R85, R86, R88). What becomes of a
tick that waits at an entry that leaves LIVE is the model's choice, DESIGN CHOICE, unsafe (notes/assumptions/6.md). -/
def Obligations.ReleaseRemovesHolding : Prop :=
  ∀ (p : Port) (i : HoldItem) (rest : List HoldItem) (s : State) (r : PortRec) (x : Entry),
    (s.port p).holdQueue = i :: rest → i.kind = .release → r = { s.port p with holdQueue := rest } →
    x = s.entry i.handle.entry →
    (x.generation ≠ i.handle.generation →
      exec (.release p) s = .next (s.setPort p (flagsSet
        { r with fault := some (FaultRecord.offered r.fault .staleHandle (.queued i.handle)) } 0x10))) ∧
    (x.generation = i.handle.generation → (x.holdingState p = none ∨ x.holdingState p = some .awarded) →
      exec (.release p) s = .next (s.setPort p r)) ∧
    (x.generation = i.handle.generation → x.holdingState p ≠ none → x.holdingState p ≠ some .awarded →
      ∃ t, exec (.release p) s = .next t ∧ losesHolding s t i.handle.entry p (portsBut s p r) noMarks)

/-- A RENEW at the head of the queue is judged by Table 21 and leaves the queue: a HELD or OVERDUE holding becomes HELD with the
resolved term, a handle that is not current is a STALE_HANDLE fault, and anything else is a RENEW_DENIED fault (R52, R85, R87,
R88). -/
def Obligations.RenewLoadsTerm : Prop :=
  ∀ (p : Port) (i : HoldItem) (rest : List HoldItem) (s : State) (r : PortRec) (x : Entry) (term : BitVec 16),
    (s.port p).holdQueue = i :: rest → i.kind = .renew → r = { s.port p with holdQueue := rest } →
    x = s.entry i.handle.entry → term = ((s.termsOf p).resolve i.term).1 →
    (x.generation ≠ i.handle.generation →
      exec (.renew p) s = .next (s.setPort p (flagsSet
        { r with fault := some (FaultRecord.offered r.fault .staleHandle (.queued i.handle)) } 0x10))) ∧
    (x.generation = i.handle.generation → (x.holdingState p = some .held ∨ x.holdingState p = some .overdue) →
      exec (.renew p) s = .next ((s.setEntry i.handle.entry
        { x with holdings := x.holdings.map fun h =>
            if h.port = p then { h with state := .held, term := term, granted := term, grace := 0, forced := false }
            else h }).setPort p r)) ∧
    (x.generation = i.handle.generation → x.holdingState p ≠ some .held → x.holdingState p ≠ some .overdue →
      exec (.renew p) s = .next (s.setPort p (flagsSet
        { r with fault := some (FaultRecord.offered r.fault .renewDenied (.queued i.handle)) } 0x10)))

/-! ## Window words (R20, R26, R113, R114, R118, R121, R136, R137, R150 to R167) -/

/-- A write of VIEW_INDEX takes the snapshot of Table 7 with the port's own holding alone; one of SUP_VIEW_INDEX by P0 takes the
supervisor's with every holding and the orphan record; a FREE entry shows SHARED, base 0 and count 0; nothing else changes
(R19, R20, R150). -/
def Obligations.ViewsTakeSnapshots : Prop :=
  ∀ (p : Port) (w : Word) (s : State) (e : EntryId) (x : Entry) (items : EntryItems),
    e = entryOf (w.extractLsb' 0 6) → x = s.entry e →
    items =
      { index := e, state := x.state, generation := x.generation
        mode := if x.state = .free then .shared else x.mode
        range := if x.state = .free then ⟨0, 0⟩ else x.range
        nHoldings := x.holdings.length, inFlight := x.inFlight, contested := x.contested } →
    (serves s p →
      exec (.viewIndex p 0 w) s = .next (s.setPort p
        { s.port p with answer := .done [], view := some { items := items, own := x.holdingOf p } })) ∧
    (serves s 0 →
      exec (.supViewIndex 0 0 w) s = .next
        { s.setPort 0 (answered (s.port 0) (.done [])) with
            supView := some { items := items, holdings := x.holdings, orphan := x.orphan } })

/-- R154: a read of NOTICE_PENDING is answered DONE with the pending flags of the kinds the port has; a write clears the flags
of the kinds written as one, P0's own kinds being ignored at P1 to P3, and changes nothing else; a port that is not OPEN is
refused with PORT_CLOSED. -/
def Obligations.AcknowledgeClearsNamedFlags : Prop :=
  ∀ (p : Port) (w : Word) (s : State) (kinds : BitVec 8), listens s p → kinds = (if p = 0 then 0xFF else 0x1F) →
    ((s.port p).state = .opened →
      exec (.controlWindowRead p 0 Reg.noticePending.addr) s =
        .next (s.setPort p (answered (s.port p) (.done [((s.port p).noticesPending &&& kinds).setWidth 32]))) ∧
      exec (.noticePending p 0 w) s = .next (s.setPort p
        { s.port p with
            answer := .done []
            noticesPending := (s.port p).noticesPending &&& ~~~(w.extractLsb' 0 8 &&& kinds) })) ∧
    ((s.port p).state ≠ .opened →
      exec (.controlWindowRead p 0 Reg.noticePending.addr) s =
        .next (s.setPort p (answered (s.port p) (.refuse .portClosed))) ∧
      exec (.noticePending p 0 w) s = .next (s.setPort p (answered (s.port p) (.refuse .portClosed))))

/-- R153: a write of NOTICE_ENABLE replaces the enable flags of the kinds the port has, no pending flag changes, and the
attention line is asserted in the same event exactly if a pending kind is then enabled; a read is answered DONE with the flags;
a port that is not OPEN is refused with PORT_CLOSED and keeps its enables. -/
def Obligations.NoticeEnablesReplaced : Prop :=
  ∀ (p : Port) (w : Word) (s : State) (kinds : BitVec 8), listens s p → kinds = (if p = 0 then 0xFF else 0x1F) →
    ((s.port p).state = .opened →
      (∃ t, exec (.noticeEnable p 0 w) s = .next t ∧
        t = s.setPort p { s.port p with answer := .done [], noticesEnabled := w.extractLsb' 0 8 &&& kinds } ∧
        (t.attention p = true ↔ (s.port p).noticesPending &&& (w.extractLsb' 0 8 &&& kinds) ≠ 0)) ∧
      exec (.controlWindowRead p 0 Reg.noticeEnable.addr) s =
        .next (s.setPort p (answered (s.port p) (.done [((s.port p).noticesEnabled &&& kinds).setWidth 32])))) ∧
    ((s.port p).state ≠ .opened →
      exec (.noticeEnable p 0 w) s = .next (s.setPort p (answered (s.port p) (.refuse .portClosed))) ∧
      exec (.controlWindowRead p 0 Reg.noticeEnable.addr) s =
        .next (s.setPort p (answered (s.port p) (.refuse .portClosed))))

/-- The words that only take their value, each answered DONE with nothing else changed: FAULT_CLEAR and the staging at any port,
and at P0 TICK_ENABLE, the dividers (whose counters stay), CMD_ARG and the timing values, of which all but ORPHAN_TICKS take 0
as 1 (R26, R113, R114, R118, R137, R158). That bit 15 of CMD_ARG is not kept is the model's choice (notes/assumptions/29.md). -/
def Obligations.PlainWordsTakeTheirValue : Prop :=
  (∀ (p : Port) (k : SlotNo) (w : Word) (s : State), serves s p →
    exec (.faultClear p 0 w) s = .next (s.setPort p { s.port p with answer := .done [], fault := none }) ∧
    exec (.registerWrite p 0 (Reg.slotDescA k).addr w) s = .next (s.setPort p
      { s.port p with
          answer := .done [], staging := (s.port p).staging.put k ⟨w.extractLsb' 16 14, w.extractLsb' 0 15⟩ })) ∧
  ∀ (w : Word) (n : Port) (s u : State), serves s 0 → u = s.setPort 0 (answered (s.port 0) (.done [])) →
    exec (.tickEnable 0 0 w) s = .next { u with tickEnable := w.getLsbD 0 } ∧
    exec (.registerWrite 0 0 Reg.prescaleDiv.addr w) s = .next { u with prescaleDiv := w.extractLsb' 0 8 } ∧
    exec (.registerWrite 0 0 Reg.tickDiv.addr w) s = .next { u with tickDiv := w.extractLsb' 0 16 } ∧
    exec (.registerWrite 0 0 Reg.cmdArg.addr w) s = .next { u with cmdArg := w &&& 0xFFFF7FFF } ∧
    exec (.registerWrite 0 0 Reg.orphanTicks.addr w) s = .next { u with orphanTicks := w.extractLsb' 0 16 } ∧
    exec (.registerWrite 0 0 Reg.collectTicks.addr w) s = .next
      { u with collectTicks := if w.extractLsb' 0 8 = 0 then 1 else w.extractLsb' 0 8 } ∧
    exec (.registerWrite 0 0 Reg.graceTicks.addr w) s = .next
      { u with graceTicks := if w.extractLsb' 0 8 = 0 then 1 else w.extractLsb' 0 8 } ∧
    exec (.registerWrite 0 0 (Reg.defaultTerm n).addr w) s = .next
      { u with terms := s.terms.put n ⟨if w.extractLsb' 0 16 = 0 then 1 else w.extractLsb' 0 16, (s.termsOf n).cap⟩ } ∧
    exec (.registerWrite 0 0 (Reg.termCap n).addr w) s = .next
      { u with terms := s.terms.put n ⟨(s.termsOf n).default, if w.extractLsb' 0 16 = 0 then 1 else w.extractLsb' 0 16⟩ }

/-- A transaction outside the pool window is refused in the order of Table 41: PORT_CLOSED at a port that is not OPEN but for a
single-word read of PORT_STATUS, SUPERVISOR_ONLY for P1 to P3 in the supervisor window, ALIGN for a burst, UNMAPPED for an
address without a word or an access the word does not permit; the refusals but the first are recorded with the address (R121,
R122, R136, R161). -/
def Obligations.WindowAccessJudged : Prop :=
  ∀ (p : Port) (len : BitVec 4) (a : BitVec 22) (w : Word) (s : State) (r : PortRec),
    listens s p → r = s.port p →
    (r.state ≠ .opened →
      exec (.registerWrite p len a w) s = .next (s.setPort p (answered r (.refuse .portClosed))) ∧
      (len ≠ 0 ∨ a ≠ 0 →
        exec (.controlWindowRead p len a) s = .next (s.setPort p (answered r (.refuse .portClosed)))) ∧
      exec (.controlWindowRead p 0 0) s = .next (s.setPort p (answered r (.done [r.statusByte.setWidth 32])))) ∧
    (r.state = .opened → p ≠ 0 → inSupervisor a →
      exec (.registerWrite p len a w) s = .next (windowRefused s p a .supervisorOnly) ∧
      exec (.controlWindowRead p len a) s = .next (windowRefused s p a .supervisorOnly)) ∧
    (r.state = .opened → p = 0 ∨ ¬inSupervisor a → len ≠ 0 →
      exec (.registerWrite p len a w) s = .next (windowRefused s p a .align) ∧
      exec (.controlWindowRead p len a) s = .next (windowRefused s p a .align)) ∧
    (r.state = .opened → p = 0 ∨ ¬inSupervisor a → len = 0 → rowAt a = none →
      exec (.registerWrite p len a w) s = .next (windowRefused s p a .unmapped) ∧
      exec (.controlWindowRead p len a) s = .next (windowRefused s p a .unmapped)) ∧
    ∀ row, r.state = .opened → p = 0 ∨ ¬inSupervisor a → len = 0 → rowAt a = some row →
      (row.writable = false → exec (.registerWrite p len a w) s = .next (windowRefused s p a .unmapped)) ∧
      (row.readable = false → exec (.controlWindowRead p len a) s = .next (windowRefused s p a .unmapped))

/-- The address map finds every word where Tables 42 and 43 place it and nowhere else, with the accesses they permit, and a command
with a row of its own is the write or the read of its word; the rows of the supervisor's commands are writes of COMMAND with
their codes (R160 to R163, Table 48). That REGISTER_WRITE acts by the rule of the word it names is the model's choice
(notes/assumptions/18.md), and that UNKNOWN_COMMAND with a code of Table 48 acts as that command is DEDUCED
(notes/assumptions/17.md). -/
def Obligations.OwnRowsAreWindowAccesses : Prop :=
  (∀ r : Reg, (rowAt r.addr).map MapRow.reg = some r ∧ 4 * r.addr.toNat = r.offset) ∧
  (∀ a row, rowAt a = some row → row.reg.addr = a) ∧
  (∀ (r : Reg) (row : MapRow), rowAt r.addr = some row →
    (row.readable = false ↔ r ∈ [Reg.faultClear, Reg.command] ∨ ∃ k, r = .slotCancel k) ∧
    (row.writable = true ↔
      r ∈ [Reg.noticePending, Reg.noticeEnable, Reg.faultClear, Reg.holdQueue, Reg.viewIndex, Reg.command, Reg.cmdArg,
        Reg.supViewIndex, Reg.collectTicks, Reg.graceTicks, Reg.orphanTicks, Reg.prescaleDiv, Reg.tickDiv, Reg.tickEnable] ∨
      (∃ k, r = .slotDescA k ∨ r = .slotDescB k ∨ r = .slotCancel k) ∨ ∃ n, r = .defaultTerm n ∨ r = .termCap n)) ∧
  ∀ (p : Port) (len : BitVec 4) (k : SlotNo) (w : Word) (s : State),
    exec (.slotDescB p len k w) s = exec (.registerWrite p len (Reg.slotDescB k).addr w) s ∧
    exec (.slotCancel p len k w) s = exec (.registerWrite p len (Reg.slotCancel k).addr w) s ∧
    exec (.slotCollect p len k) s = exec (.controlWindowRead p len (Reg.slotCollect k).addr) s ∧
    exec (.holdQueue p len w) s = exec (.registerWrite p len Reg.holdQueue.addr w) s ∧
    exec (.viewIndex p len w) s = exec (.registerWrite p len Reg.viewIndex.addr w) s ∧
    exec (.supViewIndex p len w) s = exec (.registerWrite p len Reg.supViewIndex.addr w) s ∧
    exec (.noticePending p len w) s = exec (.registerWrite p len Reg.noticePending.addr w) s ∧
    exec (.noticeEnable p len w) s = exec (.registerWrite p len Reg.noticeEnable.addr w) s ∧
    exec (.faultClear p len w) s = exec (.registerWrite p len Reg.faultClear.addr w) s ∧
    exec (.tickEnable p len w) s = exec (.registerWrite p len Reg.tickEnable.addr w) s ∧
    exec (.unknownCommand p len (w.extractLsb' 0 4)) s = exec (.registerWrite p len Reg.command.addr w) s ∧
    exec (.openPort p len) s = exec (.unknownCommand p len 1) s ∧
    exec (.closePort p len) s = exec (.unknownCommand p len 2) s ∧
    exec (.recallLease p len) s = exec (.unknownCommand p len 3) s ∧
    exec (.revokeLease p len) s = exec (.unknownCommand p len 4) s ∧
    exec (.adoptLease p len) s = exec (.unknownCommand p len 5) s ∧
    exec (.retireLease p len) s = exec (.unknownCommand p len 6) s ∧
    exec (.setPool p len) s = exec (.unknownCommand p len 7) s ∧
    exec (.partReset p len) s = exec (.unknownCommand p len 8) s

/-- A permitted read of any word but SLOT_COLLECT is answered DONE with the word's value and changes nothing but the answer. The
values: the configuration and LEASE_TIME in their fields; the port's own status, flags, fault record, staging and slots; the
views' words from their snapshots, each zero with no snapshot and each unused place zero; the result of the command engine; and
four status bytes in PORT_STATES (R21, R37, R38, R114, R117, R118, R122, R139, R150, R151, R158, R167). -/
def Obligations.WindowReadsChangeNothing : Prop :=
  (∀ (p : Port) (a : BitVec 22) (row : MapRow) (s : State), serves s p → rowAt a = some row → row.readable = true →
    (p = 0 ∨ 4 * a.toNat < 0x1000) → (∀ k, row.reg ≠ .slotCollect k) →
    exec (.controlWindowRead p 0 a) s = .next (s.setPort p (answered (s.port p) (.done [s.regWord p row.reg])))) ∧
  ∀ (s : State) (p n : Port),
    s.regWord p .leaseTime = s.leaseTime.setWidth 32 ∧ s.regWord p .poolPages = s.poolPages.setWidth 32 ∧
    s.regWord p .cmdArg = s.cmdArg ∧ s.regWord p .collectTicks = s.collectTicks.setWidth 32 ∧
    s.regWord p .graceTicks = s.graceTicks.setWidth 32 ∧ s.regWord p .orphanTicks = s.orphanTicks.setWidth 32 ∧
    s.regWord p .prescaleDiv = s.prescaleDiv.setWidth 32 ∧ s.regWord p .tickDiv = s.tickDiv.setWidth 32 ∧
    s.regWord p .tickEnable = (if s.tickEnable = true then 1 else 0) ∧
    s.regWord p (.defaultTerm n) = (s.termsOf n).default.setWidth 32 ∧
    s.regWord p (.termCap n) = (s.termsOf n).cap.setWidth 32 ∧
    (s.regWord p .portStates).extractLsb' (8 * n.val) 8 = (s.port n).statusByte ∧
    s.regWord p .portStatus = (s.port p).statusByte.setWidth 32 ∧
    s.regWord p .noticePending = ((s.port p).noticesPending &&& if p = 0 then 0xFF else 0x1F).setWidth 32 ∧
    s.regWord p .noticeEnable = ((s.port p).noticesEnabled &&& if p = 0 then 0xFF else 0x1F).setWidth 32 ∧
    s.regWord p .faultRecord = faultWord (s.port p).fault ∧ s.regWord p .faultWhere = faultWhereWord (s.port p).fault ∧
    ((s.port p).holdQueue.length ≤ 4 → s.regWord p .holdQueue = BitVec.ofNat 32 (s.port p).holdQueue.length) ∧
    s.regWord p (.slotDescA n) = ((s.port p).staging.look n).word ∧
    s.regWord p (.slotDescB n) = (s.slot p n).descBWord ∧
    s.regWord p (.slotStatus n) = (s.slot p n).statusWord (s.ahead ⟨p, n⟩) ∧
    (∀ before behind, s.waitQueue = before ++ ⟨p, n⟩ :: behind → (⟨p, n⟩ : ClaimId) ∉ before →
      s.ahead ⟨p, n⟩ = before.length) ∧
    s.regWord p .cmdResult = cmdResultWord s.engine.isSome s.result ∧
    ((s.port p).view = none → s.regWord p .viewIndex = 0 ∧ s.regWord p (.view n) = 0) ∧
    (∀ v ∈ (s.port p).view,
      s.regWord p .viewIndex = BitVec.ofNat 32 v.items.index.val ∧ s.regWord p (.view 0) = v.items.word0 ∧
      s.regWord p (.view 1) = v.items.range.word ∧ s.regWord p (.view 2) = (v.own.map Holding.wordA).getD 0 ∧
      s.regWord p (.view 3) = (v.own.map Holding.wordB).getD 0) ∧
    (s.supView = none →
      s.regWord p .supViewIndex = 0 ∧ s.regWord p .sview0 = 0 ∧ s.regWord p .sview1 = 0 ∧ s.regWord p .sviewOrphan = 0 ∧
      s.regWord p (.sviewHoldA n) = 0 ∧ s.regWord p (.sviewHoldB n) = 0) ∧
    ∀ v ∈ s.supView,
      s.regWord p .supViewIndex = BitVec.ofNat 32 v.items.index.val ∧ s.regWord p .sview0 = v.items.word0 ∧
      s.regWord p .sview1 = v.items.range.word ∧ s.regWord p .sviewOrphan = (v.orphan.map OrphanRecord.word).getD 0 ∧
      s.regWord p (.sviewHoldA n) = (v.holdings[n.val]?.map Holding.supWordA).getD 0 ∧
      s.regWord p (.sviewHoldB n) = (v.holdings[n.val]?.map Holding.wordB).getD 0

/-- The words of Tables 45 to 47 carry their fields in their bits, the bits that no table names reading zero: the slot status in
each state, SLOT_DESC_B read back, the grant and denial words, the handle and range, which a word written and read back keeps,
the words of both views, the status byte of Table 29, the fault record and the result word. A word written is read by the same
fields: the handle, the range, the claim, and the port and value of CMD_ARG. The enumerated fields have the codes of Tables 38,
48 and 49. A port's output lines carry the words of a read answered DONE one after another in their order, with the answer and
its code beside the last, or the answer alone, and its attention line is high exactly while the port is OPEN and a notice is
both pending and enabled (R37, R38, R61, R122, R156, R158, R159, R164 to R167, R169). That the lines go on carrying the last
answer given (notes/assumptions/10.md), and that the data lines carry nothing while no word is returned
(notes/assumptions/30.md), is the model's choice. -/
def Obligations.WordsCarryTheirFields : Prop :=
  ([Mode.shared, .exclusive].map Mode.code = [0, 1] ∧
   [GrantKind.new, .joined, .adopted].map GrantKind.code = [1, 2, 3] ∧
   [DenialCause.conflict, .tableFull].map DenialCause.code = [1, 2] ∧
   [EntryState.free, .live, .draining, .orphaned].map EntryState.code = [0, 1, 2, 3] ∧
   [HoldingState.awarded, .held, .overdue, .recalled].map HoldingState.code = [0, 1, 2, 3] ∧
   [CloseCause.command, .line].map CloseCause.code = [1, 2] ∧
   [CloseStage.first, .second, .third, .fourth, .fifth].map CloseStage.code = [1, 2, 3, 4, 5] ∧
   [RefusalCode.portClosed, .notHeld, .mode, .outOfPool, .align, .slotBusy, .noClaim, .badDescriptor, .selfOverlap,
     .supervisorOnly, .commandBusy, .poolParity, .unmapped, .staleHandle, .renewDenied].map RefusalCode.code =
     [1, 2, 3, 4, 5, 6, 7, 8, 9, 10, 11, 12, 13, 14, 15] ∧
   [CmdResult.ok, .badPort, .portState, .staleHandle, .leaseState, .noSlot, .overlap, .badValue, .inUse].map CmdResult.code =
     [1, 2, 3, 4, 5, 6, 7, 8, 9] ∧
   ∀ (a : BitVec 25) (h : Handle),
     [FaultPlace.read a, .write a, .control a, .queued h].map FaultPlace.kindCode = [1, 2, 3, 4]) ∧
  (∀ (s : State) (p : Port),
    (s.portPins p).toReturnBeat =
      (match (s.port p).answer with
       | .none => { rv := false, data := none, ans := 0, code := 0 }
       | .done ws => { rv := !ws.isEmpty, data := ws.getLast?, ans := 1, code := 0 }
       | .retry => { rv := false, data := none, ans := 2, code := 0 }
       | .refuse c => { rv := false, data := none, ans := 3, code := c.code }) ∧
    (s.answerBeats p = [] ↔ (s.port p).answer = .none) ∧
    (∀ b ∈ (s.answerBeats p).getLast?, b = (s.portPins p).toReturnBeat) ∧
    (∀ b ∈ (s.answerBeats p).dropLast, b.rv = true ∧ b.ans = 0 ∧ b.code = 0) ∧
    (∀ ws, (s.port p).answer = .done ws → (s.answerBeats p).filterMap ReturnBeat.data = ws) ∧
    ((∀ ws, (s.port p).answer ≠ .done ws) → (s.answerBeats p).length ≤ 1) ∧
    ((s.portPins p).attn = true ↔
      (s.port p).state = .opened ∧ (s.port p).noticesPending &&& (s.port p).noticesEnabled ≠ 0)) ∧
  (∀ r : PortRec, r.statusByte.getLsbD 7 = r.lineHeld ∧
    (r.state = .closed → r.statusByte.extractLsb' 0 7 = 0) ∧ (r.state = .opened → r.statusByte.extractLsb' 0 7 = 1) ∧
    ∀ c st, r.state = .closing c st →
      r.statusByte.extractLsb' 0 2 = 2 ∧ r.statusByte.extractLsb' 2 2 = c.code ∧ r.statusByte.extractLsb' 4 3 = st.code) ∧
  (faultWord none = 0 ∧ faultWhereWord none = 0 ∧ ∀ (f : FaultRecord) (w : Word), w = faultWord (some f) →
    w.getLsbD 31 = true ∧ w.getLsbD 30 = f.more ∧ w.extractLsb' 11 19 = 0 ∧ w.extractLsb' 8 3 = f.place.kindCode ∧
    w.extractLsb' 4 4 = 0 ∧ w.extractLsb' 0 4 = f.code.code ∧
    (∀ h, f.place = .queued h → handleOf (faultWhereWord (some f)) = h ∧ (faultWhereWord (some f)) &&& 0xC000FFFF = 0) ∧
    ∀ a, f.place = .read a ∨ f.place = .write a ∨ f.place = .control a → faultWhereWord (some f) = a.setWidth 32) ∧
  (∀ busy : Bool, cmdResultWord busy none = (if busy = true then 0x80000000 else 0) ∧
    ∀ (r : ResultWord) (w : Word), w = cmdResultWord busy (some r) →
      w.getLsbD 31 = busy ∧ w.extractLsb' 12 19 = 0 ∧ w.extractLsb' 8 4 = r.code ∧ w.extractLsb' 4 4 = 0 ∧
      w.extractLsb' 0 4 = r.result.code) ∧
  (∀ (h : Holding) (w v : Word), w = h.wordA → v = h.supWordA →
    w.getLsbD 31 = true ∧ w.getLsbD 30 = false ∧ w.extractLsb' 28 2 = h.state.code ∧ w.getLsbD 27 = h.forced ∧
    w.extractLsb' 24 3 = 0 ∧ w.extractLsb' 16 8 = h.grace ∧ w.extractLsb' 0 16 = h.term ∧
    portOf (v.extractLsb' 24 2) = h.port ∧ v &&& 0xFCFFFFFF = w ∧ h.wordB = h.granted.setWidth 32) ∧
  (∀ (o : OrphanRecord) (w : Word), w = o.word →
    w.getLsbD 31 = true ∧ w.getLsbD 30 = false ∧ portOf (w.extractLsb' 28 2) = o.former ∧ w.getLsbD 27 = o.timed ∧
    w.extractLsb' 16 11 = 0 ∧ w.extractLsb' 0 16 = o.counter) ∧
  (Slot.empty.descBWord = 0 ∧ (∀ ahead, Slot.empty.statusWord ahead = 0) ∧
    ∀ (d : Descriptor) (x : Slot) (w : Word), (x = .waiting d ∨ (∃ g, x = .granted d g) ∨ ∃ c, x = .denied d c) →
      w = x.descBWord →
      (w.getLsbD 31 = true ↔ d.mode = .exclusive) ∧ w.getLsbD 30 = d.noWait ∧ w.extractLsb' 16 14 = 0 ∧
      w.extractLsb' 0 16 = d.term ∧ descriptorOf d.range w = d) ∧
  (∀ (ahead : Nat) (d : Descriptor) (w : Word), ahead ≤ 15 → w = (Slot.waiting d).statusWord ahead →
    w.extractLsb' 0 2 = 1 ∧ w.getLsbD 2 = d.noWait ∧ (w.extractLsb' 4 4).toNat = ahead ∧ w.extractLsb' 8 24 = 0 ∧
    w.getLsbD 3 = false) ∧
  (∀ (ahead : Nat) (d : Descriptor) (g : Grant) (w : Word), w = (Slot.granted d g).statusWord ahead →
    w.extractLsb' 0 2 = 2 ∧ w.getLsbD 2 = d.noWait ∧ w.extractLsb' 3 5 = 0 ∧ w.extractLsb' 8 8 = g.collect ∧
    w.extractLsb' 16 2 = g.kind.code ∧ w.extractLsb' 18 14 = 0) ∧
  (∀ (ahead : Nat) (d : Descriptor) (c : DenialCause) (w : Word), w = (Slot.denied d c).statusWord ahead →
    w.extractLsb' 0 2 = 3 ∧ w.getLsbD 2 = d.noWait ∧ w.extractLsb' 3 15 = 0 ∧ w.extractLsb' 18 2 = c.code ∧
    w.extractLsb' 20 12 = 0) ∧
  (∀ g : Grant, g.word.extractLsb' 0 2 = 2 ∧ g.word.extractLsb' 2 2 = g.kind.code ∧ g.word.getLsbD 4 = g.clamped ∧
    g.word.extractLsb' 5 3 = 0 ∧ entryOf (g.word.extractLsb' 8 6) = g.handle.entry ∧ g.word.extractLsb' 14 2 = 0 ∧
    g.word.extractLsb' 16 8 = g.handle.generation ∧ g.word.extractLsb' 24 8 = 0) ∧
  (∀ c : DenialCause, c.word = 3 ||| (c.code.setWidth 32 <<< 6)) ∧
  ((∀ b : BitVec 2, (portOf b).val = b.toNat) ∧ ∀ b : BitVec 6, (entryOf b).val = b.toNat) ∧
  (∀ w : Word, handleOf w = ⟨entryOf (w.extractLsb' 24 6), w.extractLsb' 16 8⟩ ∧
    argPort w = portOf (w.extractLsb' 30 2) ∧ argValue w = w.extractLsb' 0 15 ∧
    stagingOf w = ⟨w.extractLsb' 16 14, w.extractLsb' 0 15⟩ ∧
    ∀ range, descriptorOf range w =
      ⟨range, if w.getLsbD 31 = true then .exclusive else .shared, w.getLsbD 30, w.extractLsb' 0 16⟩) ∧
  (∀ (h : Handle) (w : Word), w = h.word →
    handleOf w = h ∧ w.extractLsb' 30 2 = 0 ∧ entryOf (w.extractLsb' 24 6) = h.entry ∧ w.extractLsb' 16 8 = h.generation ∧
    w.extractLsb' 0 16 = 0) ∧
  (∀ (r : PageRange) (w : Word), w = r.word →
    stagingOf w = r ∧ w.extractLsb' 30 2 = 0 ∧ w.extractLsb' 16 14 = r.base ∧ w.getLsbD 15 = false ∧
    w.extractLsb' 0 15 = r.count) ∧
  ∀ (i : EntryItems) (w : Word), w = i.word0 → i.nHoldings ≤ 4 → i.inFlight ≤ 8 →
    w.getLsbD 31 = true ∧ w.getLsbD 30 = false ∧ w.extractLsb' 28 2 = i.state.code ∧ w.extractLsb' 27 1 = i.mode.code ∧
    w.getLsbD 26 = i.contested ∧ w.extractLsb' 23 3 = 0 ∧ w.extractLsb' 6 2 = 0 ∧ (w.extractLsb' 20 3).toNat = i.nHoldings ∧ (w.extractLsb' 16 4).toNat = i.inFlight ∧
    w.extractLsb' 8 8 = i.generation ∧ entryOf (w.extractLsb' 0 6) = i.index

/-! ## Supervision (R120, R124, R125, R136 to R149) -/

/-- While the engine is BUSY every write of COMMAND by P0 is refused with COMMAND_BUSY and leaves the command under way alone
(R138, R149). -/
def Obligations.BusyEngineRefusesCommands : Prop :=
  ∀ (s t : State) (code : BitVec 4), serves s 0 → s.engine ≠ none →
    t = s.setPort 0 (refusedPort (s.port 0) .commandBusy (.control 0x1001000)) →
    exec (.openPort 0 0) s = .next t ∧ exec (.closePort 0 0) s = .next t ∧ exec (.recallLease 0 0) s = .next t ∧
    exec (.revokeLease 0 0) s = .next t ∧ exec (.adoptLease 0 0) s = .next t ∧ exec (.retireLease 0 0) s = .next t ∧
    exec (.setPool 0 0) s = .next t ∧ exec (.partReset 0 0) s = .next t ∧ exec (.unknownCommand 0 0 code) s = .next t

/-- A command that fails changes nothing but the result word and P0's COMMAND notice, and its write is answered DONE; the first
condition that fails gives the result, in the order of its rule (R138 to R142, R144, R146, R148). -/
def Obligations.FailingCommandsLeaveResult : Prop :=
  ∀ (s : State) (q : Port) (h : Handle) (x : Entry) (v : BitVec 15) (code : BitVec 4), commandable s →
    q = argPort s.cmdArg → h = handleOf s.cmdArg → x = s.entry h.entry → v = argValue s.cmdArg →
    (q = 0 → exec (.openPort 0 0) s = .next (completed s 1 .badPort) ∧
      exec (.closePort 0 0) s = .next (completed s 2 .badPort)) ∧
    (q ≠ 0 → (s.port q).state ≠ .closed ∨ (s.port q).lineHeld = true →
      exec (.openPort 0 0) s = .next (completed s 1 .portState)) ∧
    (q ≠ 0 → (s.port q).state ≠ .opened → exec (.closePort 0 0) s = .next (completed s 2 .portState)) ∧
    (x.generation ≠ h.generation →
      exec (.recallLease 0 0) s = .next (completed s 3 .staleHandle) ∧
      exec (.revokeLease 0 0) s = .next (completed s 4 .staleHandle) ∧
      exec (.adoptLease 0 0) s = .next (completed s 5 .staleHandle) ∧
      exec (.retireLease 0 0) s = .next (completed s 6 .staleHandle)) ∧
    (x.generation = h.generation → x.state ≠ .live →
      exec (.recallLease 0 0) s = .next (completed s 3 .leaseState) ∧
      exec (.revokeLease 0 0) s = .next (completed s 4 .leaseState)) ∧
    (x.generation = h.generation → x.state ≠ .orphaned → exec (.retireLease 0 0) s = .next (completed s 6 .leaseState)) ∧
    (x.generation = h.generation → x.state ≠ .orphaned ∨ x.inFlight ≠ 0 →
      exec (.adoptLease 0 0) s = .next (completed s 5 .leaseState)) ∧
    (x.generation = h.generation → x.state = .orphaned → x.inFlight = 0 →
      ((s.port q).state ≠ .opened → exec (.adoptLease 0 0) s = .next (completed s 5 .portState)) ∧
      ((s.port q).state = .opened → (∀ k, s.slot q k ≠ .empty) →
        exec (.adoptLease 0 0) s = .next (completed s 5 .noSlot)) ∧
      ((s.port q).state = .opened → (∃ k, s.slot q k = .empty) → s.overlapsOwn q x.range = true →
        exec (.adoptLease 0 0) s = .next (completed s 5 .overlap))) ∧
    (v = 0 ∨ 16384 < v → exec (.setPool 0 0) s = .next (completed s 7 .badValue)) ∧
    (v ≠ 0 → v ≤ 16384 → (∃ e, (s.entry e).state ≠ .free) ∨ (∃ p k, s.slot p k ≠ .empty) →
      exec (.setPool 0 0) s = .next (completed s 7 .inUse)) ∧
    (code = 0 ∨ 8 < code → exec (.unknownCommand 0 0 code) s = .next (completed s code .badValue))

/-- OPEN_PORT opens a CLOSED port whose line is released and completes with OK; CLOSE_PORT begins the close of an OPEN one with
cause COMMAND and stays BUSY (R124, R125, R138 to R140); SET_POOL on an unused part sets the pool's size and completes with OK
(R148). That the first stage of the close ends in its own event is the model's reading (notes/assumptions/8.md). -/
def Obligations.PortAndPoolCommandsAct : Prop :=
  ∀ (s : State) (q : Port) (v : BitVec 15), commandable s → q = argPort s.cmdArg → v = argValue s.cmdArg →
    (q ≠ 0 → (s.port q).state = .closed → (s.port q).lineHeld = false →
      exec (.openPort 0 0) s = .next (completed (s.setPort q { s.port q with state := .opened }) 1 .ok)) ∧
    (q ≠ 0 → (s.port q).state = .opened →
      exec (.closePort 0 0) s = .next
        { (s.setPort q { s.port q with state := .closing .command .second }).setPort 0
            (answered (s.port 0) (.done [])) with engine := some ⟨2, s.cmdArg⟩ }) ∧
    (v ≠ 0 → v ≤ 16384 → (∀ e, (s.entry e).state = .free) → (∀ p k, s.slot p k = .empty) →
      exec (.setPool 0 0) s = .next (completed { s with poolPages := v } 7 .ok))

/-- RECALL_LEASE of a LIVE entry makes every collected holding RECALLED and forced with a fresh grace and its port's RECALL
notice, passes over AWARDED ones, and completes with OK; contest and the rest of the machine stay (R80, R141). -/
def Obligations.RecallForcesEveryCollectedHolding : Prop :=
  ∀ (s : State) (h : Handle) (x : Entry), commandable s → h = handleOf s.cmdArg → x = s.entry h.entry →
    x.generation = h.generation → x.state = .live →
    ∃ t, exec (.recallLease 0 0) s = .next t ∧ leaseFrame s t ∧ othersKept s t h.entry ∧
      t.entry h.entry = { x with holdings := x.holdings.map fun g =>
        if g.state = .awarded then g
        else { g with state := .recalled, term := 0, grace := s.graceTicks, forced := true } } ∧
      t.evalCalled = s.evalCalled ∧ t.engine = none ∧ t.result = some ⟨3, .ok⟩ ∧
      ∀ q, t.port q = flagsSet (portsBut s 0 (answered (s.port 0) (.done [])) q)
        ((if ∃ g ∈ x.holdings, g.port = q ∧ g.state ≠ .awarded then 0x04 else 0) ||| (if q = 0 then 0x20 else 0))

/-- REVOKE_LEASE of a LIVE entry removes every holding, empties the slots whose grants name it, sets REVOKE at the ports of
collected holdings and LAPSE at those slots' ports, and leaves the entry DRAINING with the command waiting, or FREE with the
command completed (R17, R68, R142, R143). What becomes of a tick that waits at the entry is the model's choice, DESIGN CHOICE,
unsafe (notes/assumptions/6.md). -/
def Obligations.RevokeEndsTheLease : Prop :=
  ∀ (s : State) (h : Handle) (x : Entry), commandable s → h = handleOf s.cmdArg → x = s.entry h.entry →
    x.generation = h.generation → x.state = .live →
    ∃ t, exec (.revokeLease 0 0) s = .next t ∧
      leaves { s with engine := some ⟨4, s.cmdArg⟩ } t h.entry
        (fun q =>
          { s.port q with
              answer := if q = 0 then .done [] else (s.port q).answer
              slots := (s.port q).slots.map fun k => if grantNames k h.entry = true then .empty else k })
        (fun q => (if ∃ g ∈ x.holdings, g.port = q ∧ g.state ≠ .awarded then 0x08 else 0) |||
          (if ∃ k, grantNames (s.slot q k) h.entry = true then 0x02 else 0))

/-- ADOPT_LEASE that passes its checks makes the orphan LIVE with an AWARDED holding for the port, its record kept, and the
port's lowest EMPTY slot GRANTED with kind ADOPTED, both with the term of a request of 0, sets the GRANT notice and completes
with OK; the slot's descriptor is EXCLUSIVE with no-wait clear and term 0 (R38, R52, R144, R145). That the descriptor's range is
the orphan's is DEDUCED, unsafe (notes/assumptions/25.md). That a tick that waits at the entry goes on waiting there is the
model's choice, DESIGN CHOICE, unsafe (notes/assumptions/6.md). -/
def Obligations.AdoptGrantsTheOrphan : Prop :=
  ∀ (s : State) (h : Handle) (q : Port) (k : SlotNo) (x : Entry) (term : BitVec 16) (clamped : Bool), commandable s →
    h = handleOf s.cmdArg → q = argPort s.cmdArg → x = s.entry h.entry → x.generation = h.generation →
    x.state = .orphaned → x.inFlight = 0 → (s.port q).state = .opened → s.slot q k = .empty →
    (∀ k', k' < k → s.slot q k' ≠ .empty) → s.overlapsOwn q x.range = false →
    (s.termsOf q).resolve 0 = (term, clamped) →
    ∃ t, exec (.adoptLease 0 0) s = .next t ∧ leaseFrame s t ∧ othersKept s t h.entry ∧
      t.entry h.entry =
        { x with
            state := .live
            holdings := [{ port := q, state := .awarded, term := term, granted := term, grace := 0, forced := false }] } ∧
      t.evalCalled = s.evalCalled ∧ t.engine = none ∧ t.result = some ⟨5, .ok⟩ ∧
      ∀ p, t.port p =
        flagsSet
          { s.port p with
              answer := if p = 0 then .done [] else (s.port p).answer
              slots := if p = q then
                  (s.port p).slots.put k (.granted ⟨x.range, .exclusive, false, 0⟩
                    { handle := h, kind := .adopted, term := term, clamped := clamped, collect := s.collectTicks,
                      tickDue := false })
                else (s.port p).slots }
          ((if p = q then 0x01 else 0) ||| (if p = 0 then 0x20 else 0))

/-- RETIRE_LEASE discards an orphan's record and leaves the entry DRAINING with the command waiting, or FREE with the command
completed; no notice is set but P0's COMMAND at completion (R18, R146). What becomes of a tick that waits at the entry is the
model's choice, DESIGN CHOICE, unsafe (notes/assumptions/6.md). -/
def Obligations.RetireDiscardsTheOrphan : Prop :=
  ∀ (s : State) (h : Handle), commandable s → h = handleOf s.cmdArg → (s.entry h.entry).generation = h.generation →
    (s.entry h.entry).state = .orphaned →
    ∃ t, exec (.retireLease 0 0) s = .next t ∧
      leaves { s with engine := some ⟨6, s.cmdArg⟩ } t h.entry (portsBut s 0 (answered (s.port 0) (.done []))) noMarks

/-- The words of the supervisor window answer P0 alone: no transaction of P1, P2 or P3 changes the configuration, the clock, the
CMD_ARG word, the supervisor's view, NRESET or any port's state, and the engine and its result word stay but where the giving
back of a grant frees the entry that the engine waits for, which completes its command (R19, R136, R139). -/
def Obligations.OnlySupervisorConfigures : Prop :=
  ∀ (c : Instr) (p : Port) (s t : State), c.presenter = some p → p ≠ 0 → exec c s = .next t →
    t.prescaleDiv = s.prescaleDiv ∧ t.tickDiv = s.tickDiv ∧ t.tickEnable = s.tickEnable ∧
    t.prescaleCounter = s.prescaleCounter ∧ t.tickCounter = s.tickCounter ∧ t.leaseTime = s.leaseTime ∧
    t.poolPages = s.poolPages ∧ t.terms = s.terms ∧ t.collectTicks = s.collectTicks ∧ t.graceTicks = s.graceTicks ∧
    t.orphanTicks = s.orphanTicks ∧ t.cmdArg = s.cmdArg ∧ t.supView = s.supView ∧ t.nreset = s.nreset ∧
    ((t.engine = s.engine ∧ t.result = s.result) ∨
      ∃ k w d g e, (c = .slotCancel p 0 k w ∨ c = .registerWrite p 0 (Reg.slotCancel k).addr w) ∧
        s.slot p k = .granted d g ∧ g.handle.entry = e ∧ awaits s e = true ∧ (t.entry e).state = .free ∧
        (GrantHasHolding s → (s.entry e).state = .live) ∧ t.engine = none ∧
        t.result = s.engine.map fun x => ⟨x.code, .ok⟩) ∧
    ∀ q, (t.port q).state = (s.port q).state

/-! ## The close procedure (R40, R127 to R133) -/

/-- The second stage applies the holding queue to empty, from its head, each item as its own event would, and the third stage
then begins (R85, R128). -/
def Obligations.SecondStageAppliesQueue : Prop :=
  ∀ (p : Port) (c : CloseCause) (s : State), (s.port p).state = .closing c .second →
    ((s.port p).holdQueue = [] →
      exec (.closeSecondStage p) s = .next (s.setPort p { s.port p with state := .closing c .third })) ∧
    ∀ i rest, (s.port p).holdQueue = i :: rest →
      ∃ t, exec (if i.kind = .release then .release p else .renew p) s = .next t ∧
        (t.port p).state = .closing c .second ∧ (t.port p).holdQueue = rest ∧
        exec (.closeSecondStage p) s = exec (.closeSecondStage p) t

/-- The third stage takes the port's slots from S0 to S3: a WAITING claim is withdrawn, which ends the contest that was its alone
and calls for an evaluation; a grant is given back, by which an ADOPTED one's entry returns to ORPHANED and any other's loses
the port's holding alone; a denial is discarded. At its end the slots are EMPTY, the claims are out of the queue, which keeps
its order, no AWARDED holding of the port is left, the other ports' slots stay, no LAPSE notice is set, and the fourth stage
begins (R34, R40, R56, R66, R67, R79, R128). What becomes of a tick that waits at a grant's entry is the model's choice, DESIGN
CHOICE, unsafe (notes/assumptions/6.md). -/
def Obligations.ThirdStageEmptiesSlots : Prop :=
  ∀ (p : Port) (c : CloseCause) (s : State), (s.port p).state = .closing c .third →
    ((∀ k, s.slot p k = .empty) →
      exec (.closeThirdStage p) s = .next (s.setPort p { s.port p with state := .closing c .fourth })) ∧
    (∀ k, (∀ j, j < k → s.slot p j = .empty) →
      (∀ d, s.slot p k = .waiting d →
        ∃ u, exec (.closeThirdStage p) s = exec (.closeThirdStage p) u ∧ withdraws s u p k d) ∧
      (∀ d g, s.slot p k = .granted d g →
        ∃ u, exec (.closeThirdStage p) s = exec (.closeThirdStage p) u ∧
          givesBack s u p g (portsBut s p (withSlot (s.port p) k .empty)) noMarks) ∧
      ∀ d a, s.slot p k = .denied d a →
        exec (.closeThirdStage p) s = exec (.closeThirdStage p) (s.setPort p (withSlot (s.port p) k .empty))) ∧
    (QueueLaw s → LeaseLaw s → FlightLaw s →
    ∃ t, exec (.closeThirdStage p) s = .next t ∧
      t = { s with
              entries := t.entries, ports := t.ports, waitQueue := s.waitQueue.filter (fun i => i.port != p),
              evalCalled := t.evalCalled, engine := t.engine, result := t.result } ∧
      (∀ e, (t.entry e).holdingState p ≠ some .awarded) ∧
      (∀ k, t.slot p k = .empty) ∧
      (∀ q, q ≠ p → q ≠ 0 → t.port q = s.port q) ∧
      (p ≠ 0 → t.port 0 = { s.port 0 with noticesPending := (t.port 0).noticesPending }) ∧
      t.port p = { s.port p with
        slots := (t.port p).slots, state := .closing c .fourth, noticesPending := (t.port p).noticesPending } ∧
      (∀ q, (t.port q).noticesPending &&& 0x9F = (s.port q).noticesPending &&& 0x9F))

/-- The fourth stage deals with every holding of the port by Table 30: removed from SHARED entries and where RECALLED, and else
the EXCLUSIVE entry becomes an orphan with P0's ORPHAN notice; an entry left without a holder drains or becomes FREE, which
calls for an evaluation and completes a command that waits for it; and the fifth stage begins (R17, R19, R129, R130). What
becomes of a tick that waits at an entry is the model's choice, DESIGN CHOICE, unsafe (notes/assumptions/6.md), as is that an
AWARDED holding, which no run finds here, is removed (DESIGN CHOICE, notes/assumptions/26.md). -/
def Obligations.FourthStageRemovesOrOrphans : Prop :=
  ∀ (p : Port) (c : CloseCause) (s : State), (s.port p).state = .closing c .fourth →
    (∀ e, EntryShape (s.entry e)) →
    ∃ t, exec (.closeFourthStage p) s = .next t ∧ leaseFrame s t ∧
      (∀ e, t.entry e = vacatedEntry p s.orphanTicks (s.entry e)) ∧ (∀ e, (t.entry e).holdingOf p = none) ∧
      t.engine = (if closeFreesAwaited s p then none else s.engine) ∧
      t.result = (if closeFreesAwaited s p then s.engine.map fun x => ⟨x.code, .ok⟩ else s.result) ∧
      (∀ q, t.port q =
        flagsSet (portsBut s p { s.port p with state := .closing c .fifth } q)
          ((if q = 0 ∧ ∃ e, (s.entry e).mode = .exclusive ∧
              ((s.entry e).holdingState p = some .held ∨ (s.entry e).holdingState p = some .overdue)
           then 0x40 else 0) |||
           (if q = 0 ∧ closeFreesAwaited s p then 0x20 else 0))) ∧
      (t.evalCalled = true ↔ s.evalCalled = true ∨
        ∃ e, (s.entry e).holdingState p ≠ none ∧ (vacatedEntry p s.orphanTicks (s.entry e)).state = .free)

/-- The sixth stage, once the buffer and the read are gone: the port is CLOSED with its notices, enables, fault record, view and
staging cleared; a CLOSE_PORT that waits for it completes with OK; P0 also loses the supervisor's view, and opens at once if
its line and NRESET are released (R126, R131, R132, R150). -/
def Obligations.SixthStageClosesPort : Prop :=
  ∀ (p : Port) (c : CloseCause) (s : State) (r : PortRec), (s.port p).state = .closing c .fifth →
    (s.port p).writeBuffer = [] → (s.port p).read = none →
    r = { s.port p with
            state := .closed, noticesPending := 0, noticesEnabled := 0, fault := none, view := none,
            staging := Vector.replicate 4 ⟨0, 0⟩ } →
    ∃ t, exec (.closeSixthStage p) s = .next t ∧
      t = { s with ports := t.ports, engine := t.engine, result := t.result, supView := t.supView } ∧
      t.supView = (if p = 0 then none else s.supView) ∧
      (closeAwaited s p = true → t.engine = none ∧ t.result = some ⟨2, .ok⟩) ∧
      (closeAwaited s p = false → t.engine = s.engine ∧ t.result = s.result) ∧
      t.port p = (if p = 0 ∧ s.nreset = false ∧ r.lineHeld = false then { r with state := .opened } else r) ∧
      (∀ q, q ≠ p → q ≠ 0 → t.port q = s.port q) ∧
      (p ≠ 0 → closeAwaited s p = true → t.port 0 = flagsSet (s.port 0) 0x20) ∧ (p ≠ 0 → closeAwaited s p = false → t.port 0 = s.port 0)

/-! ## Laws that every step keeps -/

/-- State.reset keeps every law below. The form of the pool's cells among them, and that none is written at reset, are the model's
choice, DESIGN CHOICE (notes/assumptions/11.md, 15.md). -/
def Obligations.LawsHoldAtReset : Prop :=
  RoomLaw State.reset ∧ PoolForm State.reset ∧ CountersLaw State.reset ∧ QueueLaw State.reset ∧ LeaseLaw State.reset ∧
  FlightLaw State.reset ∧ NoConflict State.reset ∧ OwnRangesApart State.reset ∧ ContestLaw State.reset

/-- Every step keeps the rooms of the ports, the canonical form of the pool and the ranges of the counters (R64, R73, R83, R100,
R103, R118, R152). The form of the pool, sparse lists of cells in rising order of address, is given by no rule: it is the
model's choice, DESIGN CHOICE (notes/assumptions/11.md). -/
def Obligations.BoundsKeptByEveryStep : Prop :=
  ∀ s t : State, step s = .next t →
    (RoomLaw s → RoomLaw t) ∧ (PoolForm s → PoolForm t) ∧ (CountersLaw s → CountersLaw t)

/-- Every step keeps the queue the list of the WAITING claims, each once (R33). -/
def Obligations.QueueLawKeptByEveryStep : Prop :=
  ∀ s t : State, step s = .next t → QueueLaw s → QueueLaw t

/-- Every step keeps each in-flight count the number of bursts tied to its entry and not finished (R14, R18, R106). -/
def Obligations.FlightLawKeptByEveryStep : Prop :=
  ∀ s t : State, step s = .next t → FlightLaw s → FlightLaw t

/-- Every step keeps the lease table, the claim table and the ports fitting together: the shapes of the entries, the pairing of
grants and AWARDED holdings, and what closing and CLOSED ports may hold (R5, R8, R11, R18, R63, R72, R133). -/
def Obligations.LeaseLawKeptByEveryStep : Prop :=
  ∀ s t : State, step s = .next t → LeaseLaw s → FlightLaw s → LeaseLaw t

/-- Every step keeps conflicting leases apart, and a port's own ranges: no two entries in use share pages if either is EXCLUSIVE
or ORPHANED (R6), and the ranges of one port's holdings and waiting claims do not overlap (R29). -/
def Obligations.RangesKeptApartByEveryStep : Prop :=
  ∀ s t : State, step s = .next t → LeaseLaw s → (NoConflict s → NoConflict t) ∧ (OwnRangesApart s → OwnRangesApart t)

/-- Every step keeps an entry contested exactly while a WAITING claim conflicts with it (R7, R55, R56). -/
def Obligations.ContestLawKeptByEveryStep : Prop :=
  ∀ s t : State, step s = .next t → LeaseLaw s → QueueLaw s → ContestLaw s → ContestLaw t
end

