-- ==== Sys2Proof/Laws/State.lean ====
section
/-! SUPPORT. One lemma for each field and each update of the state, and for what is read through the named accessors. Each is
true by unfolding, so no later proof unfolds an update of the record. -/

namespace Sys2Proof.Machine

section

variable (s : State) (p : Port) (r : PortRec)

@[simp] theorem State.setPort_nreset : (s.setPort p r).nreset = s.nreset := rfl
@[simp] theorem State.setPort_entries : (s.setPort p r).entries = s.entries := rfl
@[simp] theorem State.setPort_waitQueue : (s.setPort p r).waitQueue = s.waitQueue := rfl
@[simp] theorem State.setPort_evalCalled : (s.setPort p r).evalCalled = s.evalCalled := rfl
@[simp] theorem State.setPort_prescaleDiv : (s.setPort p r).prescaleDiv = s.prescaleDiv := rfl
@[simp] theorem State.setPort_prescaleCounter : (s.setPort p r).prescaleCounter = s.prescaleCounter := rfl
@[simp] theorem State.setPort_tickDiv : (s.setPort p r).tickDiv = s.tickDiv := rfl
@[simp] theorem State.setPort_tickCounter : (s.setPort p r).tickCounter = s.tickCounter := rfl
@[simp] theorem State.setPort_tickEnable : (s.setPort p r).tickEnable = s.tickEnable := rfl
@[simp] theorem State.setPort_tickDue : (s.setPort p r).tickDue = s.tickDue := rfl
@[simp] theorem State.setPort_leaseTime : (s.setPort p r).leaseTime = s.leaseTime := rfl
@[simp] theorem State.setPort_poolPages : (s.setPort p r).poolPages = s.poolPages := rfl
@[simp] theorem State.setPort_terms : (s.setPort p r).terms = s.terms := rfl
@[simp] theorem State.setPort_collectTicks : (s.setPort p r).collectTicks = s.collectTicks := rfl
@[simp] theorem State.setPort_graceTicks : (s.setPort p r).graceTicks = s.graceTicks := rfl
@[simp] theorem State.setPort_orphanTicks : (s.setPort p r).orphanTicks = s.orphanTicks := rfl
@[simp] theorem State.setPort_engine : (s.setPort p r).engine = s.engine := rfl
@[simp] theorem State.setPort_cmdArg : (s.setPort p r).cmdArg = s.cmdArg := rfl
@[simp] theorem State.setPort_result : (s.setPort p r).result = s.result := rfl
@[simp] theorem State.setPort_supView : (s.setPort p r).supView = s.supView := rfl
@[simp] theorem State.setPort_memPort : (s.setPort p r).memPort = s.memPort := rfl
@[simp] theorem State.setPort_pointer : (s.setPort p r).pointer = s.pointer := rfl
@[simp] theorem State.setPort_poolData : (s.setPort p r).poolData = s.poolData := rfl
@[simp] theorem State.setPort_poolParity : (s.setPort p r).poolParity = s.poolParity := rfl
@[simp] theorem State.setPort_freeDraws : (s.setPort p r).freeDraws = s.freeDraws := rfl
@[simp] theorem State.setPort_pending : (s.setPort p r).pending = s.pending := rfl
@[simp] theorem State.setPort_termsOf (q : Port) : (s.setPort p r).termsOf q = s.termsOf q := rfl
@[simp] theorem State.setPort_entry (f : EntryId) : (s.setPort p r).entry f = s.entry f := rfl
@[simp] theorem State.setPort_poolByte (c : Nat) : (s.setPort p r).poolByte c = s.poolByte c := rfl
@[simp] theorem State.setPort_poolParityAt (c : Nat) : (s.setPort p r).poolParityAt c = s.poolParityAt c := rfl

end

section

variable (s : State) (p : Port) (g : PortRec → PortRec)

@[simp] theorem State.modPort_nreset : (s.modPort p g).nreset = s.nreset := rfl
@[simp] theorem State.modPort_entries : (s.modPort p g).entries = s.entries := rfl
@[simp] theorem State.modPort_waitQueue : (s.modPort p g).waitQueue = s.waitQueue := rfl
@[simp] theorem State.modPort_evalCalled : (s.modPort p g).evalCalled = s.evalCalled := rfl
@[simp] theorem State.modPort_prescaleDiv : (s.modPort p g).prescaleDiv = s.prescaleDiv := rfl
@[simp] theorem State.modPort_prescaleCounter : (s.modPort p g).prescaleCounter = s.prescaleCounter := rfl
@[simp] theorem State.modPort_tickDiv : (s.modPort p g).tickDiv = s.tickDiv := rfl
@[simp] theorem State.modPort_tickCounter : (s.modPort p g).tickCounter = s.tickCounter := rfl
@[simp] theorem State.modPort_tickEnable : (s.modPort p g).tickEnable = s.tickEnable := rfl
@[simp] theorem State.modPort_tickDue : (s.modPort p g).tickDue = s.tickDue := rfl
@[simp] theorem State.modPort_leaseTime : (s.modPort p g).leaseTime = s.leaseTime := rfl
@[simp] theorem State.modPort_poolPages : (s.modPort p g).poolPages = s.poolPages := rfl
@[simp] theorem State.modPort_terms : (s.modPort p g).terms = s.terms := rfl
@[simp] theorem State.modPort_collectTicks : (s.modPort p g).collectTicks = s.collectTicks := rfl
@[simp] theorem State.modPort_graceTicks : (s.modPort p g).graceTicks = s.graceTicks := rfl
@[simp] theorem State.modPort_orphanTicks : (s.modPort p g).orphanTicks = s.orphanTicks := rfl
@[simp] theorem State.modPort_engine : (s.modPort p g).engine = s.engine := rfl
@[simp] theorem State.modPort_cmdArg : (s.modPort p g).cmdArg = s.cmdArg := rfl
@[simp] theorem State.modPort_result : (s.modPort p g).result = s.result := rfl
@[simp] theorem State.modPort_supView : (s.modPort p g).supView = s.supView := rfl
@[simp] theorem State.modPort_memPort : (s.modPort p g).memPort = s.memPort := rfl
@[simp] theorem State.modPort_pointer : (s.modPort p g).pointer = s.pointer := rfl
@[simp] theorem State.modPort_poolData : (s.modPort p g).poolData = s.poolData := rfl
@[simp] theorem State.modPort_poolParity : (s.modPort p g).poolParity = s.poolParity := rfl
@[simp] theorem State.modPort_freeDraws : (s.modPort p g).freeDraws = s.freeDraws := rfl
@[simp] theorem State.modPort_pending : (s.modPort p g).pending = s.pending := rfl
@[simp] theorem State.modPort_termsOf (q : Port) : (s.modPort p g).termsOf q = s.termsOf q := rfl
@[simp] theorem State.modPort_entry (f : EntryId) : (s.modPort p g).entry f = s.entry f := rfl
@[simp] theorem State.modPort_poolByte (c : Nat) : (s.modPort p g).poolByte c = s.poolByte c := rfl
@[simp] theorem State.modPort_poolParityAt (c : Nat) : (s.modPort p g).poolParityAt c = s.poolParityAt c := rfl

end

section

variable (s : State) (e : EntryId) (x : Entry)

@[simp] theorem State.setEntry_nreset : (s.setEntry e x).nreset = s.nreset := rfl
@[simp] theorem State.setEntry_ports : (s.setEntry e x).ports = s.ports := rfl
@[simp] theorem State.setEntry_waitQueue : (s.setEntry e x).waitQueue = s.waitQueue := rfl
@[simp] theorem State.setEntry_evalCalled : (s.setEntry e x).evalCalled = s.evalCalled := rfl
@[simp] theorem State.setEntry_prescaleDiv : (s.setEntry e x).prescaleDiv = s.prescaleDiv := rfl
@[simp] theorem State.setEntry_prescaleCounter : (s.setEntry e x).prescaleCounter = s.prescaleCounter := rfl
@[simp] theorem State.setEntry_tickDiv : (s.setEntry e x).tickDiv = s.tickDiv := rfl
@[simp] theorem State.setEntry_tickCounter : (s.setEntry e x).tickCounter = s.tickCounter := rfl
@[simp] theorem State.setEntry_tickEnable : (s.setEntry e x).tickEnable = s.tickEnable := rfl
@[simp] theorem State.setEntry_tickDue : (s.setEntry e x).tickDue = s.tickDue := rfl
@[simp] theorem State.setEntry_leaseTime : (s.setEntry e x).leaseTime = s.leaseTime := rfl
@[simp] theorem State.setEntry_poolPages : (s.setEntry e x).poolPages = s.poolPages := rfl
@[simp] theorem State.setEntry_terms : (s.setEntry e x).terms = s.terms := rfl
@[simp] theorem State.setEntry_collectTicks : (s.setEntry e x).collectTicks = s.collectTicks := rfl
@[simp] theorem State.setEntry_graceTicks : (s.setEntry e x).graceTicks = s.graceTicks := rfl
@[simp] theorem State.setEntry_orphanTicks : (s.setEntry e x).orphanTicks = s.orphanTicks := rfl
@[simp] theorem State.setEntry_engine : (s.setEntry e x).engine = s.engine := rfl
@[simp] theorem State.setEntry_cmdArg : (s.setEntry e x).cmdArg = s.cmdArg := rfl
@[simp] theorem State.setEntry_result : (s.setEntry e x).result = s.result := rfl
@[simp] theorem State.setEntry_supView : (s.setEntry e x).supView = s.supView := rfl
@[simp] theorem State.setEntry_memPort : (s.setEntry e x).memPort = s.memPort := rfl
@[simp] theorem State.setEntry_pointer : (s.setEntry e x).pointer = s.pointer := rfl
@[simp] theorem State.setEntry_poolData : (s.setEntry e x).poolData = s.poolData := rfl
@[simp] theorem State.setEntry_poolParity : (s.setEntry e x).poolParity = s.poolParity := rfl
@[simp] theorem State.setEntry_freeDraws : (s.setEntry e x).freeDraws = s.freeDraws := rfl
@[simp] theorem State.setEntry_pending : (s.setEntry e x).pending = s.pending := rfl
@[simp] theorem State.setEntry_termsOf (q : Port) : (s.setEntry e x).termsOf q = s.termsOf q := rfl
@[simp] theorem State.setEntry_port (q : Port) : (s.setEntry e x).port q = s.port q := rfl
@[simp] theorem State.setEntry_slot (q : Port) (j : SlotNo) : (s.setEntry e x).slot q j = s.slot q j := rfl
@[simp] theorem State.setEntry_claimAt (c : ClaimId) : (s.setEntry e x).claimAt c = s.claimAt c := rfl
@[simp] theorem State.setEntry_poolByte (c : Nat) : (s.setEntry e x).poolByte c = s.poolByte c := rfl
@[simp] theorem State.setEntry_poolParityAt (c : Nat) : (s.setEntry e x).poolParityAt c = s.poolParityAt c := rfl

end

section

variable (s : State) (e : EntryId) (g : Entry → Entry)

@[simp] theorem State.modEntry_nreset : (s.modEntry e g).nreset = s.nreset := rfl
@[simp] theorem State.modEntry_ports : (s.modEntry e g).ports = s.ports := rfl
@[simp] theorem State.modEntry_waitQueue : (s.modEntry e g).waitQueue = s.waitQueue := rfl
@[simp] theorem State.modEntry_evalCalled : (s.modEntry e g).evalCalled = s.evalCalled := rfl
@[simp] theorem State.modEntry_prescaleDiv : (s.modEntry e g).prescaleDiv = s.prescaleDiv := rfl
@[simp] theorem State.modEntry_prescaleCounter : (s.modEntry e g).prescaleCounter = s.prescaleCounter := rfl
@[simp] theorem State.modEntry_tickDiv : (s.modEntry e g).tickDiv = s.tickDiv := rfl
@[simp] theorem State.modEntry_tickCounter : (s.modEntry e g).tickCounter = s.tickCounter := rfl
@[simp] theorem State.modEntry_tickEnable : (s.modEntry e g).tickEnable = s.tickEnable := rfl
@[simp] theorem State.modEntry_tickDue : (s.modEntry e g).tickDue = s.tickDue := rfl
@[simp] theorem State.modEntry_leaseTime : (s.modEntry e g).leaseTime = s.leaseTime := rfl
@[simp] theorem State.modEntry_poolPages : (s.modEntry e g).poolPages = s.poolPages := rfl
@[simp] theorem State.modEntry_terms : (s.modEntry e g).terms = s.terms := rfl
@[simp] theorem State.modEntry_collectTicks : (s.modEntry e g).collectTicks = s.collectTicks := rfl
@[simp] theorem State.modEntry_graceTicks : (s.modEntry e g).graceTicks = s.graceTicks := rfl
@[simp] theorem State.modEntry_orphanTicks : (s.modEntry e g).orphanTicks = s.orphanTicks := rfl
@[simp] theorem State.modEntry_engine : (s.modEntry e g).engine = s.engine := rfl
@[simp] theorem State.modEntry_cmdArg : (s.modEntry e g).cmdArg = s.cmdArg := rfl
@[simp] theorem State.modEntry_result : (s.modEntry e g).result = s.result := rfl
@[simp] theorem State.modEntry_supView : (s.modEntry e g).supView = s.supView := rfl
@[simp] theorem State.modEntry_memPort : (s.modEntry e g).memPort = s.memPort := rfl
@[simp] theorem State.modEntry_pointer : (s.modEntry e g).pointer = s.pointer := rfl
@[simp] theorem State.modEntry_poolData : (s.modEntry e g).poolData = s.poolData := rfl
@[simp] theorem State.modEntry_poolParity : (s.modEntry e g).poolParity = s.poolParity := rfl
@[simp] theorem State.modEntry_freeDraws : (s.modEntry e g).freeDraws = s.freeDraws := rfl
@[simp] theorem State.modEntry_pending : (s.modEntry e g).pending = s.pending := rfl
@[simp] theorem State.modEntry_termsOf (q : Port) : (s.modEntry e g).termsOf q = s.termsOf q := rfl
@[simp] theorem State.modEntry_port (q : Port) : (s.modEntry e g).port q = s.port q := rfl
@[simp] theorem State.modEntry_slot (q : Port) (j : SlotNo) : (s.modEntry e g).slot q j = s.slot q j := rfl
@[simp] theorem State.modEntry_claimAt (c : ClaimId) : (s.modEntry e g).claimAt c = s.claimAt c := rfl
@[simp] theorem State.modEntry_poolByte (c : Nat) : (s.modEntry e g).poolByte c = s.poolByte c := rfl
@[simp] theorem State.modEntry_poolParityAt (c : Nat) : (s.modEntry e g).poolParityAt c = s.poolParityAt c := rfl

end

section

variable (s : State) (p : Port) (k : SlotNo) (x : Slot)

@[simp] theorem State.setSlot_nreset : (s.setSlot p k x).nreset = s.nreset := rfl
@[simp] theorem State.setSlot_entries : (s.setSlot p k x).entries = s.entries := rfl
@[simp] theorem State.setSlot_waitQueue : (s.setSlot p k x).waitQueue = s.waitQueue := rfl
@[simp] theorem State.setSlot_evalCalled : (s.setSlot p k x).evalCalled = s.evalCalled := rfl
@[simp] theorem State.setSlot_prescaleDiv : (s.setSlot p k x).prescaleDiv = s.prescaleDiv := rfl
@[simp] theorem State.setSlot_prescaleCounter : (s.setSlot p k x).prescaleCounter = s.prescaleCounter := rfl
@[simp] theorem State.setSlot_tickDiv : (s.setSlot p k x).tickDiv = s.tickDiv := rfl
@[simp] theorem State.setSlot_tickCounter : (s.setSlot p k x).tickCounter = s.tickCounter := rfl
@[simp] theorem State.setSlot_tickEnable : (s.setSlot p k x).tickEnable = s.tickEnable := rfl
@[simp] theorem State.setSlot_tickDue : (s.setSlot p k x).tickDue = s.tickDue := rfl
@[simp] theorem State.setSlot_leaseTime : (s.setSlot p k x).leaseTime = s.leaseTime := rfl
@[simp] theorem State.setSlot_poolPages : (s.setSlot p k x).poolPages = s.poolPages := rfl
@[simp] theorem State.setSlot_terms : (s.setSlot p k x).terms = s.terms := rfl
@[simp] theorem State.setSlot_collectTicks : (s.setSlot p k x).collectTicks = s.collectTicks := rfl
@[simp] theorem State.setSlot_graceTicks : (s.setSlot p k x).graceTicks = s.graceTicks := rfl
@[simp] theorem State.setSlot_orphanTicks : (s.setSlot p k x).orphanTicks = s.orphanTicks := rfl
@[simp] theorem State.setSlot_engine : (s.setSlot p k x).engine = s.engine := rfl
@[simp] theorem State.setSlot_cmdArg : (s.setSlot p k x).cmdArg = s.cmdArg := rfl
@[simp] theorem State.setSlot_result : (s.setSlot p k x).result = s.result := rfl
@[simp] theorem State.setSlot_supView : (s.setSlot p k x).supView = s.supView := rfl
@[simp] theorem State.setSlot_memPort : (s.setSlot p k x).memPort = s.memPort := rfl
@[simp] theorem State.setSlot_pointer : (s.setSlot p k x).pointer = s.pointer := rfl
@[simp] theorem State.setSlot_poolData : (s.setSlot p k x).poolData = s.poolData := rfl
@[simp] theorem State.setSlot_poolParity : (s.setSlot p k x).poolParity = s.poolParity := rfl
@[simp] theorem State.setSlot_freeDraws : (s.setSlot p k x).freeDraws = s.freeDraws := rfl
@[simp] theorem State.setSlot_pending : (s.setSlot p k x).pending = s.pending := rfl
@[simp] theorem State.setSlot_termsOf (q : Port) : (s.setSlot p k x).termsOf q = s.termsOf q := rfl
@[simp] theorem State.setSlot_entry (f : EntryId) : (s.setSlot p k x).entry f = s.entry f := rfl
@[simp] theorem State.setSlot_poolByte (c : Nat) : (s.setSlot p k x).poolByte c = s.poolByte c := rfl
@[simp] theorem State.setSlot_poolParityAt (c : Nat) : (s.setSlot p k x).poolParityAt c = s.poolParityAt c := rfl

end

section

variable (s : State) (p : Port) (a : Answer)

@[simp] theorem State.answer_nreset : (s.answer p a).nreset = s.nreset := rfl
@[simp] theorem State.answer_entries : (s.answer p a).entries = s.entries := rfl
@[simp] theorem State.answer_waitQueue : (s.answer p a).waitQueue = s.waitQueue := rfl
@[simp] theorem State.answer_evalCalled : (s.answer p a).evalCalled = s.evalCalled := rfl
@[simp] theorem State.answer_prescaleDiv : (s.answer p a).prescaleDiv = s.prescaleDiv := rfl
@[simp] theorem State.answer_prescaleCounter : (s.answer p a).prescaleCounter = s.prescaleCounter := rfl
@[simp] theorem State.answer_tickDiv : (s.answer p a).tickDiv = s.tickDiv := rfl
@[simp] theorem State.answer_tickCounter : (s.answer p a).tickCounter = s.tickCounter := rfl
@[simp] theorem State.answer_tickEnable : (s.answer p a).tickEnable = s.tickEnable := rfl
@[simp] theorem State.answer_tickDue : (s.answer p a).tickDue = s.tickDue := rfl
@[simp] theorem State.answer_leaseTime : (s.answer p a).leaseTime = s.leaseTime := rfl
@[simp] theorem State.answer_poolPages : (s.answer p a).poolPages = s.poolPages := rfl
@[simp] theorem State.answer_terms : (s.answer p a).terms = s.terms := rfl
@[simp] theorem State.answer_collectTicks : (s.answer p a).collectTicks = s.collectTicks := rfl
@[simp] theorem State.answer_graceTicks : (s.answer p a).graceTicks = s.graceTicks := rfl
@[simp] theorem State.answer_orphanTicks : (s.answer p a).orphanTicks = s.orphanTicks := rfl
@[simp] theorem State.answer_engine : (s.answer p a).engine = s.engine := rfl
@[simp] theorem State.answer_cmdArg : (s.answer p a).cmdArg = s.cmdArg := rfl
@[simp] theorem State.answer_result : (s.answer p a).result = s.result := rfl
@[simp] theorem State.answer_supView : (s.answer p a).supView = s.supView := rfl
@[simp] theorem State.answer_memPort : (s.answer p a).memPort = s.memPort := rfl
@[simp] theorem State.answer_pointer : (s.answer p a).pointer = s.pointer := rfl
@[simp] theorem State.answer_poolData : (s.answer p a).poolData = s.poolData := rfl
@[simp] theorem State.answer_poolParity : (s.answer p a).poolParity = s.poolParity := rfl
@[simp] theorem State.answer_freeDraws : (s.answer p a).freeDraws = s.freeDraws := rfl
@[simp] theorem State.answer_pending : (s.answer p a).pending = s.pending := rfl
@[simp] theorem State.answer_termsOf (q : Port) : (s.answer p a).termsOf q = s.termsOf q := rfl
@[simp] theorem State.answer_entry (f : EntryId) : (s.answer p a).entry f = s.entry f := rfl
@[simp] theorem State.answer_poolByte (c : Nat) : (s.answer p a).poolByte c = s.poolByte c := rfl
@[simp] theorem State.answer_poolParityAt (c : Nat) : (s.answer p a).poolParityAt c = s.poolParityAt c := rfl

end

section

variable (s : State) (a : Nat) (b : Byte) (par : Bool)

@[simp] theorem State.setLane_nreset : (s.setLane a b par).nreset = s.nreset := rfl
@[simp] theorem State.setLane_entries : (s.setLane a b par).entries = s.entries := rfl
@[simp] theorem State.setLane_ports : (s.setLane a b par).ports = s.ports := rfl
@[simp] theorem State.setLane_waitQueue : (s.setLane a b par).waitQueue = s.waitQueue := rfl
@[simp] theorem State.setLane_evalCalled : (s.setLane a b par).evalCalled = s.evalCalled := rfl
@[simp] theorem State.setLane_prescaleDiv : (s.setLane a b par).prescaleDiv = s.prescaleDiv := rfl
@[simp] theorem State.setLane_prescaleCounter : (s.setLane a b par).prescaleCounter = s.prescaleCounter := rfl
@[simp] theorem State.setLane_tickDiv : (s.setLane a b par).tickDiv = s.tickDiv := rfl
@[simp] theorem State.setLane_tickCounter : (s.setLane a b par).tickCounter = s.tickCounter := rfl
@[simp] theorem State.setLane_tickEnable : (s.setLane a b par).tickEnable = s.tickEnable := rfl
@[simp] theorem State.setLane_tickDue : (s.setLane a b par).tickDue = s.tickDue := rfl
@[simp] theorem State.setLane_leaseTime : (s.setLane a b par).leaseTime = s.leaseTime := rfl
@[simp] theorem State.setLane_poolPages : (s.setLane a b par).poolPages = s.poolPages := rfl
@[simp] theorem State.setLane_terms : (s.setLane a b par).terms = s.terms := rfl
@[simp] theorem State.setLane_collectTicks : (s.setLane a b par).collectTicks = s.collectTicks := rfl
@[simp] theorem State.setLane_graceTicks : (s.setLane a b par).graceTicks = s.graceTicks := rfl
@[simp] theorem State.setLane_orphanTicks : (s.setLane a b par).orphanTicks = s.orphanTicks := rfl
@[simp] theorem State.setLane_engine : (s.setLane a b par).engine = s.engine := rfl
@[simp] theorem State.setLane_cmdArg : (s.setLane a b par).cmdArg = s.cmdArg := rfl
@[simp] theorem State.setLane_result : (s.setLane a b par).result = s.result := rfl
@[simp] theorem State.setLane_supView : (s.setLane a b par).supView = s.supView := rfl
@[simp] theorem State.setLane_memPort : (s.setLane a b par).memPort = s.memPort := rfl
@[simp] theorem State.setLane_pointer : (s.setLane a b par).pointer = s.pointer := rfl
@[simp] theorem State.setLane_freeDraws : (s.setLane a b par).freeDraws = s.freeDraws := rfl
@[simp] theorem State.setLane_pending : (s.setLane a b par).pending = s.pending := rfl
@[simp] theorem State.setLane_termsOf (q : Port) : (s.setLane a b par).termsOf q = s.termsOf q := rfl
@[simp] theorem State.setLane_entry (f : EntryId) : (s.setLane a b par).entry f = s.entry f := rfl
@[simp] theorem State.setLane_port (q : Port) : (s.setLane a b par).port q = s.port q := rfl
@[simp] theorem State.setLane_slot (q : Port) (j : SlotNo) : (s.setLane a b par).slot q j = s.slot q j := rfl
@[simp] theorem State.setLane_claimAt (c : ClaimId) : (s.setLane a b par).claimAt c = s.claimAt c := rfl

end

end Sys2Proof.Machine
end

