-- ==== Sys2Proof/Laws/Tables.lean ====
section
/-! SUPPORT. Reading a table after replacing a place of it, and the accessors of ports, entries and slots after an update. -/

namespace Sys2Proof

@[ext] theorem Table.ext_look {n : Nat} {α : Type} {t u : Table n α} (h : ∀ i, t.look i = u.look i) : t = u :=
  Vector.ext fun i hi => h ⟨i, hi⟩

theorem Table.look_put {n : Nat} {α : Type} (t : Table n α) (i j : Fin n) (x : α) :
    (t.put i x).look j = if j = i then x else t.look j := by
  by_cases h : i.val = j.val
  · simp [Table.put, Table.look, Vector.get_eq_getElem, Fin.ext h]
  · simp [Table.put, Table.look, Vector.get_eq_getElem, h, Fin.ext_iff, Ne.symm h]

@[simp] theorem Table.look_put_self {n : Nat} {α : Type} (t : Table n α) (i : Fin n) (x : α) : (t.put i x).look i = x := by
  simp [Table.look_put]

@[simp] theorem Table.look_put_ne {n : Nat} {α : Type} (t : Table n α) {i j : Fin n} (x : α) (h : j ≠ i) :
    (t.put i x).look j = t.look j := by simp [Table.look_put, h]

@[simp] theorem Table.put_look {n : Nat} {α : Type} (t : Table n α) (i : Fin n) : t.put i (t.look i) = t := by
  ext j; by_cases h : j = i <;> simp [h]

@[simp] theorem Table.put_put {n : Nat} {α : Type} (t : Table n α) (i : Fin n) (x y : α) : (t.put i x).put i y = t.put i y := by
  ext j; by_cases h : j = i <;> simp [h]

theorem Table.put_comm {n : Nat} {α : Type} (t : Table n α) {i j : Fin n} (x y : α) (h : i ≠ j) :
    (t.put i x).put j y = (t.put j y).put i x := by
  ext k; by_cases hi : k = i <;> by_cases hj : k = j <;> simp_all

namespace Machine

variable (s : State)

/-! ## Ports -/

theorem State.setPort_port (p q : Port) (r : PortRec) : (s.setPort p r).port q = portsBut s p r q := Table.look_put ..

@[simp] theorem State.setPort_port_self (p : Port) (r : PortRec) : (s.setPort p r).port p = r := Table.look_put_self ..

@[simp] theorem State.setPort_port_ne {p q : Port} (r : PortRec) (h : q ≠ p) : (s.setPort p r).port q = s.port q :=
  Table.look_put_ne _ _ h

@[simp] theorem State.setPort_self (p : Port) : s.setPort p (s.port p) = s := by simp [State.setPort, State.port]

@[simp] theorem State.setPort_setPort (p : Port) (r r' : PortRec) : (s.setPort p r).setPort p r' = s.setPort p r' := by
  simp [State.setPort]

theorem State.setPort_comm {p q : Port} (r r' : PortRec) (h : p ≠ q) :
    (s.setPort p r).setPort q r' = (s.setPort q r').setPort p r := by simp [State.setPort, Table.put_comm _ r r' h]

@[simp] theorem State.modPort_port_self (p : Port) (f : PortRec → PortRec) : (s.modPort p f).port p = f (s.port p) :=
  s.setPort_port_self p _

@[simp] theorem State.modPort_port_ne {p q : Port} (f : PortRec → PortRec) (h : q ≠ p) : (s.modPort p f).port q = s.port q :=
  s.setPort_port_ne _ h

theorem State.modPort_eq (p : Port) (f : PortRec → PortRec) : s.modPort p f = s.setPort p (f (s.port p)) := rfl

theorem State.setSlot_eq (p : Port) (k : SlotNo) (x : Slot) : s.setSlot p k x = s.setPort p (withSlot (s.port p) k x) := rfl

theorem State.setSlot_slot (p q : Port) (k j : SlotNo) (x : Slot) :
    (s.setSlot p k x).slot q j = if q = p ∧ j = k then x else s.slot q j := by
  by_cases hq : q = p
  · subst hq; by_cases hk : j = k <;> simp [State.slot, State.setSlot_eq, withSlot, hk]
  · simp [State.slot, State.setSlot_eq, hq]

/-- Two states agree when their ports do and everything else does. -/
theorem State.ext_ports {t u : State} (h : ∀ p, t.port p = u.port p) (ho : t = { u with ports := t.ports }) : t = u := by
  have : t.ports = u.ports := Table.ext_look h
  rw [ho, this]

/-! ## Entries -/

theorem State.setEntry_entry (e f : EntryId) (x : Entry) : (s.setEntry e x).entry f = if f = e then x else s.entry f :=
  Table.look_put ..

@[simp] theorem State.setEntry_entry_self (e : EntryId) (x : Entry) : (s.setEntry e x).entry e = x := Table.look_put_self ..

@[simp] theorem State.setEntry_entry_ne {e f : EntryId} (x : Entry) (h : f ≠ e) : (s.setEntry e x).entry f = s.entry f :=
  Table.look_put_ne _ _ h

@[simp] theorem State.setEntry_self (e : EntryId) : s.setEntry e (s.entry e) = s := by simp [State.setEntry, State.entry]

@[simp] theorem State.setEntry_setEntry (e : EntryId) (x y : Entry) : (s.setEntry e x).setEntry e y = s.setEntry e y := by
  simp [State.setEntry]

@[simp] theorem State.modEntry_entry_self (e : EntryId) (f : Entry → Entry) : (s.modEntry e f).entry e = f (s.entry e) :=
  s.setEntry_entry_self e _

@[simp] theorem State.modEntry_entry_ne {e f : EntryId} (g : Entry → Entry) (h : f ≠ e) :
    (s.modEntry e g).entry f = s.entry f := s.setEntry_entry_ne _ h

theorem State.modEntry_eq (e : EntryId) (f : Entry → Entry) : s.modEntry e f = s.setEntry e (f (s.entry e)) := rfl

theorem State.setPort_setEntry (p : Port) (r : PortRec) (e : EntryId) (x : Entry) :
    (s.setPort p r).setEntry e x = (s.setEntry e x).setPort p r := rfl

/-! ## The transaction -/

/-- A port that listens has its transaction taken. -/
theorem State.transact_of_listens {p : Port} (f : State → State) (h : listens s p) : s.transact p f = f s := by
  simp [State.transact, State.takes, h.1, h.2.1, h.2.2]

/-- At any other port a transaction has no effect. -/
theorem State.transact_of_not_listens {p : Port} (f : State → State) (h : ¬listens s p) : s.transact p f = s := by
  have : s.takes p = false := by
    by_contra hc
    exact h ⟨by simp_all [State.takes], by simp_all [State.takes], by simp_all [State.takes]⟩
  simp [State.transact, this]

end Machine

end Sys2Proof
end

