-- ==== Sys2Proof/Laws/Cells.lean ====
section
/-! SUPPORT. The pool memory: reading after writing, and the canonical form, which every write keeps. -/

namespace Sys2Proof.Machine

/-- A read after a write: the value written at its address, and what stood there before anywhere else. -/
theorem Cells.get_set {α : Type} (m : Cells α) (a b : Nat) (v : α) :
    Cells.get (Cells.set m a v) b = if b = a then some v else Cells.get m b := by
  induction m with
  | nil => by_cases h : b = a <;> simp [Cells.set, Cells.get, h]
  | cons c rest ih =>
    obtain ⟨d, x⟩ := c
    rcases lt_trichotomy a d with h | h | h
    · have hne : a ≠ d := by omega
      by_cases hb : b = a
      · simp [Cells.set, Cells.get, hne, h, hb]
      · by_cases hl : b < a
        · have : b ≠ d ∧ b < d := by omega
          simp [Cells.set, Cells.get, hne, h, hb, hl, this]
        · simp [Cells.set, Cells.get, hne, h, hb, hl]
    · subst h
      by_cases hb : b = a <;> simp [Cells.set, Cells.get, hb]
    · have hne : a ≠ d ∧ ¬a < d := by omega
      by_cases hd : b = d
      · have : b ≠ a := by omega
        simp [Cells.set, Cells.get, hne, hd, Ne.symm hne.1]
      · by_cases hl : b < d
        · have : b ≠ a := by omega
          simp [Cells.set, Cells.get, hne, hd, hl, this]
        · simp [Cells.set, Cells.get, hne, hd, hl, ih]

theorem Cells.above_set {α : Type} (m : Cells α) (a b : Nat) (v : α) (hb : b < a) (h : Cells.above b m = true) :
    Cells.above b (Cells.set m a v) = true := by
  induction m generalizing b with
  | nil => simp [Cells.set, Cells.above, hb]
  | cons c rest ih =>
    obtain ⟨d, x⟩ := c
    simp only [Cells.above, Bool.and_eq_true, decide_eq_true_eq] at h
    unfold Cells.set
    split_ifs with h1 h2
    · subst h1; simp [Cells.above, hb, h.2]
    · simp [Cells.above, hb, h2, h.2]
    · simp [Cells.above, h.1, ih d (by omega) h.2]

/-- A write keeps the canonical form. -/
theorem Cells.wf_set {α : Type} (m : Cells α) (a : Nat) (v : α) (h : Cells.wf m = true) : Cells.wf (Cells.set m a v) = true := by
  match m with
  | [] => rfl
  | (d, x) :: rest =>
    simp only [Cells.wf] at h
    unfold Cells.set
    split_ifs with h1 h2
    · simpa [Cells.wf, h1] using h
    · simp [Cells.wf, Cells.above, h2, h]
    · exact Cells.above_set rest a d v (by omega) h

/-- The memory of the reset state has the canonical form. -/
theorem reset_pool_wf : Cells.wf State.reset.poolData = true ∧ Cells.wf State.reset.poolParity = true := by decide

/-! ## Lanes and words -/

variable (s : State)

theorem State.setLane_poolByte (a b : Nat) (v : Byte) (par : Bool) :
    (s.setLane a v par).poolByte b = if b = a then v else s.poolByte b := by
  by_cases h : b = a <;> simp [State.poolByte, State.setLane, Cells.get_set, h]

theorem State.setLane_poolParityAt (a b : Nat) (v : Byte) (par : Bool) :
    (s.setLane a v par).poolParityAt b = if b = a then par else s.poolParityAt b := by
  by_cases h : b = a <;> simp [State.poolParityAt, State.setLane, Cells.get_set, h]

/-- Writing a lane changes nothing but the pool. -/
theorem State.setLane_frame (a : Nat) (v : Byte) (par : Bool) :
    s.setLane a v par =
      { s with poolData := (s.setLane a v par).poolData, poolParity := (s.setLane a v par).poolParity } := rfl

theorem State.setLane_wf (a : Nat) (v : Byte) (par : Bool) (h : PoolForm s) : PoolForm (s.setLane a v par) :=
  ⟨Cells.wf_set _ _ _ h.1, Cells.wf_set _ _ _ h.2⟩

/-- A word written: the enabled lanes hold it with their parity, every other byte is as it was, nothing but the pool has
changed, and the pool keeps its form. -/
theorem State.writeWord_stores (base : Nat) (be : BitVec 4) (w : Word) :
    storesWord s (s.writeWord base be w) base be w ∧
    s.writeWord base be w =
      { s with poolData := (s.writeWord base be w).poolData, poolParity := (s.writeWord base be w).poolParity } ∧
    (PoolForm s → PoolForm (s.writeWord base be w)) := by
  have key : ∀ (l : List (Fin 4)), l.Nodup → ∀ u : State,
      let t := l.foldl (fun s i => if be.getLsbD i.val then
        s.setLane (base + i.val) (laneByte w i) (parityBit (laneByte w i)) else s) u
      (∀ i ∈ l, be.getLsbD i.val = true →
        t.poolByte (base + i.val) = laneByte w i ∧ t.poolParityAt (base + i.val) = parityBit (laneByte w i)) ∧
      (∀ a, (∀ i ∈ l, be.getLsbD i.val = true → a ≠ base + i.val) → byteKept u t a) ∧
      t = { u with poolData := t.poolData, poolParity := t.poolParity } ∧ (PoolForm u → PoolForm t) := by
    intro l
    induction l with
    | nil => intro _ u; exact ⟨by simp, fun a _ => ⟨rfl, rfl⟩, rfl, id⟩
    | cons i l ih =>
      intro hn u
      have hn' := List.nodup_cons.mp hn
      simp only [List.foldl_cons]
      by_cases hi : be.getLsbD i.val = true
      · rw [if_pos hi]
        obtain ⟨h1, h2, h3, h4⟩ := ih hn'.2 (u.setLane (base + i.val) (laneByte w i) (parityBit (laneByte w i)))
        refine ⟨?_, ?_, ?_, fun hp => h4 (State.setLane_wf _ _ _ _ hp)⟩
        · intro j hj hb
          rcases List.mem_cons.mp hj with rfl | hj
          · have := h2 (base + j.val) (fun k hk _ => by
              intro he
              have : j.val = k.val := by omega
              exact hn'.1 (Fin.ext this ▸ hk))
            simpa [byteKept, State.setLane_poolByte, State.setLane_poolParityAt] using this
          · exact h1 j hj hb
        · intro a ha
          have hne : a ≠ base + i.val := ha i (by simp) hi
          have := h2 a (fun k hk => ha k (by simp [hk]))
          simpa [byteKept, State.setLane_poolByte, State.setLane_poolParityAt, hne] using this
        · exact h3
      · rw [if_neg hi]
        obtain ⟨h1, h2, h3, h4⟩ := ih hn'.2 u
        refine ⟨?_, fun a ha => h2 a (fun k hk => ha k (by simp [hk])), h3, h4⟩
        intro j hj hb
        rcases List.mem_cons.mp hj with rfl | hj
        · exact absurd hb hi
        · exact h1 j hj hb
  obtain ⟨h1, h2, h3, h4⟩ := key lanes (List.nodup_finRange 4) s
  exact ⟨⟨fun i hb => h1 i (List.mem_finRange i) hb, fun a ha => h2 a (fun i _ => ha i)⟩, h3, h4⟩

end Sys2Proof.Machine
end

