-- ==== Sys2Proof/Laws/Ports.lean ====
section
/-! SUPPORT. What the notice unit, the fault record and the answers do, each said once as a replacement of one port's record. -/

namespace Sys2Proof.Machine

variable (s : State)

/-! ## Notices -/

/-- Setting no notice changes nothing. -/
@[simp] theorem flagsSet_zero (r : PortRec) : flagsSet r 0#8 = r := by simp [flagsSet]

/-- A CLOSED port takes no notice. -/
theorem flagsSet_closed {r : PortRec} (m : BitVec 8) (h : r.state = .closed) : flagsSet r m = r := by
  unfold flagsSet; rw [if_pos h]

@[simp] theorem flagsSet_state (r : PortRec) (m : BitVec 8) : (flagsSet r m).state = r.state := rfl
@[simp] theorem flagsSet_lineHeld (r : PortRec) (m : BitVec 8) : (flagsSet r m).lineHeld = r.lineHeld := rfl
@[simp] theorem flagsSet_slots (r : PortRec) (m : BitVec 8) : (flagsSet r m).slots = r.slots := rfl
@[simp] theorem flagsSet_staging (r : PortRec) (m : BitVec 8) : (flagsSet r m).staging = r.staging := rfl
@[simp] theorem flagsSet_holdQueue (r : PortRec) (m : BitVec 8) : (flagsSet r m).holdQueue = r.holdQueue := rfl
@[simp] theorem flagsSet_writeBuffer (r : PortRec) (m : BitVec 8) : (flagsSet r m).writeBuffer = r.writeBuffer := rfl
@[simp] theorem flagsSet_read (r : PortRec) (m : BitVec 8) : (flagsSet r m).read = r.read := rfl
@[simp] theorem flagsSet_view (r : PortRec) (m : BitVec 8) : (flagsSet r m).view = r.view := rfl
@[simp] theorem flagsSet_fault (r : PortRec) (m : BitVec 8) : (flagsSet r m).fault = r.fault := rfl
@[simp] theorem flagsSet_noticesEnabled (r : PortRec) (m : BitVec 8) : (flagsSet r m).noticesEnabled = r.noticesEnabled := rfl
@[simp] theorem flagsSet_answer (r : PortRec) (m : BitVec 8) : (flagsSet r m).answer = r.answer := rfl

/-- Two rounds of notices are one. -/
@[simp] theorem flagsSet_flagsSet (r : PortRec) (m m' : BitVec 8) : flagsSet (flagsSet r m) m' = flagsSet r (m ||| m') := by
  by_cases h : r.state = .closed <;> simp [flagsSet, h, BitVec.or_assoc]

/-- Setting a notice replaces one port's record. -/
theorem State.setNotice_eq (p : Port) (k : Notice) : s.setNotice p k = s.setPort p (flagsSet (s.port p) k.mask) := by
  unfold State.setNotice
  split_ifs with h
  · simp [flagsSet_closed _ h]
  · simp [State.modPort_eq, flagsSet, h]

theorem State.setNotice_port (p q : Port) (k : Notice) :
    (s.setNotice p k).port q = flagsSet (s.port q) (markAt p k.mask q) := by
  by_cases h : q = p
  · subst h; simp [State.setNotice_eq, markAt]
  · simp [State.setNotice_eq, markAt, h]

/-- Setting a notice changes nothing but ports. -/
theorem State.setNotice_frame (p : Port) (k : Notice) : s.setNotice p k = { s with ports := (s.setNotice p k).ports } := by
  rw [State.setNotice_eq]; rfl

/-- One notice at each of some ports. -/
theorem State.noticeAll_port (ps : List Port) (q : Port) (k : Notice) :
    (s.noticeAll ps k).port q = flagsSet (s.port q) (if q ∈ ps then k.mask else 0) := by
  induction ps generalizing s with
  | nil => simp [State.noticeAll]
  | cons p ps ih =>
    have h := ih (s.setNotice p k)
    simp only [State.noticeAll, List.foldl_cons] at h ⊢
    rw [h, State.setNotice_port, flagsSet_flagsSet]
    by_cases hq : q = p <;> by_cases hm : q ∈ ps <;> simp_all [markAt]

theorem State.noticeAll_frame (ps : List Port) (k : Notice) :
    s.noticeAll ps k = { s with ports := (s.noticeAll ps k).ports } := by
  induction ps generalizing s with
  | nil => rfl
  | cons p ps ih =>
    have h := ih (s.setNotice p k)
    simp only [State.noticeAll, List.foldl_cons] at h ⊢
    rw [h, State.setNotice_frame]

/-! ## The fault record and the answers -/

theorem State.answer_eq (p : Port) (a : Answer) : s.answer p a = s.setPort p (answered (s.port p) a) := rfl

/-- Offering a fault replaces one port's record. -/
theorem State.offerFault_eq (p : Port) (c : RefusalCode) (place : FaultPlace) :
    s.offerFault p c place =
      s.setPort p (flagsSet { s.port p with fault := some (FaultRecord.offered (s.port p).fault c place) } 0x10) := by
  simp [State.offerFault, State.setNotice_eq, State.modPort_eq, Notice.mask]

/-- A refusal other than PORT_CLOSED replaces one port's record. -/
theorem State.refuse_eq (p : Port) (c : RefusalCode) (place : FaultPlace) :
    s.refuse p c place = s.setPort p (refusedPort (s.port p) c place) := by
  simp [State.refuse, State.offerFault_eq, State.answer_eq, answered, refusedPort, flagsSet]

theorem State.refuseClosed_eq (p : Port) : s.refuseClosed p = s.setPort p (answered (s.port p) (.refuse .portClosed)) := rfl

theorem State.done_eq (p : Port) : s.done p = s.setPort p (answered (s.port p) (.done [])) := rfl

theorem State.doneWord_eq (p : Port) (w : Word) : s.doneWord p w = s.setPort p (answered (s.port p) (.done [w])) := rfl

/-! ## The completion of a command -/

/-- A completion writes the result word, makes the engine IDLE and sets P0's COMMAND notice. -/
theorem State.complete_eq (code : BitVec 4) (r : CmdResult) :
    s.complete code r = { s.setPort 0 (flagsSet (s.port 0) 0x20) with engine := none, result := some ⟨code, r⟩ } := by
  simp [State.complete, State.setNotice_eq, Notice.mask, State.setPort, State.port]

/-- A completion followed by the answer to the write of COMMAND. -/
theorem State.complete_done (code : BitVec 4) (r : CmdResult) : (s.complete code r).done 0 = completed s code r := by
  rw [State.complete_eq]
  simp [completed, State.done_eq, State.setPort, State.port]

end Sys2Proof.Machine
end

