-- ==== Sys2Proof/Laws/Leases.lean ====
section
/-! SUPPORT. What each operation of the lease table does, said once: the entry it leaves, the ports it touches, and that nothing
else changes. Later proofs cite these and do not unfold the operations. -/

namespace Sys2Proof.Machine

variable (s : State)

/-! ## Building one event from parts -/

/-- An entry replaced and nothing else: it stays in use, with the ports as they are. -/
theorem State.setEntry_becomes (e : EntryId) (x : Entry) : becomes s (s.setEntry e x) e x s.port noMarks :=
  ⟨rfl, fun _ h => s.setEntry_entry_ne x h, s.setEntry_entry_self e x, rfl, rfl, rfl, fun _ => (flagsSet_zero _).symm⟩

/-- The event seen from before its ports were changed. -/
theorem becomes_of_ports {s u t : State} {e : EntryId} {x : Entry} {marks : Port → BitVec 8} (before : Port → PortRec)
    (hu : u = { s with ports := u.ports }) (hb : ∀ q, u.port q = before q) (h : becomes u t e x u.port marks) :
    becomes s t e x before marks := by
  obtain ⟨h1, h2, h3, h4, h5, h6, h7⟩ := h
  rw [hu] at h1 h2 h4 h5 h6
  exact ⟨h1, h2, h3, h4, h5, h6, fun q => by rw [h7, hb]⟩

theorem becomesFree_of_ports {s u t : State} {e : EntryId} {marks : Port → BitVec 8} (before : Port → PortRec)
    (hu : u = { s with ports := u.ports }) (hb : ∀ q, u.port q = before q) (h : becomesFree u t e u.port marks) :
    becomesFree s t e before marks := by
  obtain ⟨h1, h2, h3, h4, h5, h6, h7⟩ := h
  have ha : awaits u e = awaits s e := by rw [hu]; rfl
  rw [ha] at h5 h6
  rw [hu] at h1 h2 h3 h5 h6
  exact ⟨h1, h2, h3, h4, h5, h6, fun q => by rw [h7, hb, ha]⟩

theorem leaves_of_ports {s u t : State} {e : EntryId} {marks : Port → BitVec 8} (before : Port → PortRec)
    (hu : u = { s with ports := u.ports }) (hb : ∀ q, u.port q = before q) (h : leaves u t e u.port marks) :
    leaves s t e before marks := by
  have hx : u.entry e = s.entry e := by rw [hu]; rfl
  unfold leaves at h ⊢
  rw [hx] at h
  split_ifs at h ⊢ with hf
  · exact becomesFree_of_ports before hu hb h
  · exact becomes_of_ports before hu hb h

/-- A notice set in the same event, after it. -/
theorem becomes_setNotice {s t : State} {e : EntryId} {x : Entry} {before : Port → PortRec} {marks : Port → BitVec 8}
    (p : Port) (k : Notice) (h : becomes s t e x before marks) :
    becomes s (t.setNotice p k) e x before (fun q => marks q ||| markAt p k.mask q) := by
  obtain ⟨h1, h2, h3, h4, h5, h6, h7⟩ := h
  rw [State.setNotice_eq]
  refine ⟨?_, h2, h3, h4, h5, h6, fun q => ?_⟩
  · unfold leaseFrame; rw [h1]; rfl
  · rw [← State.setNotice_eq, State.setNotice_port, h7, flagsSet_flagsSet]

theorem becomesFree_setNotice {s t : State} {e : EntryId} {before : Port → PortRec} {marks : Port → BitVec 8}
    (p : Port) (k : Notice) (h : becomesFree s t e before marks) :
    becomesFree s (t.setNotice p k) e before (fun q => marks q ||| markAt p k.mask q) := by
  obtain ⟨h1, h2, h3, h4, h5, h6, h7⟩ := h
  rw [State.setNotice_eq]
  refine ⟨?_, h2, h3, h4, h5, h6, fun q => ?_⟩
  · unfold leaseFrame; rw [h1]; rfl
  · rw [← State.setNotice_eq, State.setNotice_port, h7, flagsSet_flagsSet]
    congr 1
    simp only [BitVec.or_assoc]
    congr 1
    exact BitVec.or_comm _ _

theorem leaves_setNotice {s t : State} {e : EntryId} {before : Port → PortRec} {marks : Port → BitVec 8}
    (p : Port) (k : Notice) (h : leaves s t e before marks) :
    leaves s (t.setNotice p k) e before (fun q => marks q ||| markAt p k.mask q) := by
  unfold leaves at h ⊢
  split_ifs at h ⊢ with hf
  · exact becomesFree_setNotice p k h
  · exact becomes_setNotice p k h

/-! ## The freeing of an entry -/

/-- The freeing of an entry that no command waits for. -/
theorem State.freeEntry_eq {e : EntryId} (h : awaits s e = false) :
    s.freeEntry e = { s.setEntry e (s.entry e).freed with evalCalled := true } := by
  unfold State.freeEntry
  unfold awaits at h
  split at h
  · next hE => simp [hE, State.modEntry_eq]
  · next hE => simp [hE, h, State.modEntry_eq]

/-- The freeing of an entry that completes the command that waits for it. -/
theorem State.freeEntry_eq_of_awaits {e : EntryId} (h : awaits s e = true) :
    ∃ c, s.engine = some c ∧ s.freeEntry e =
      { (s.setEntry e (s.entry e).freed).setPort 0 (flagsSet (s.port 0) 0x20) with
          evalCalled := true, engine := none, result := some ⟨c.code, .ok⟩ } := by
  unfold awaits at h
  split at h
  · cases h
  · next c hE =>
    refine ⟨c, hE, ?_⟩
    unfold State.freeEntry
    simp only [hE, h, if_true, State.complete_eq]
    rfl

/-- Freeing an entry clears it, calls for an evaluation and completes the command that waits for it (R19). -/
theorem State.freeEntry_becomesFree (e : EntryId) : becomesFree s (s.freeEntry e) e s.port noMarks := by
  cases hw : awaits s e with
  | false =>
    rw [s.freeEntry_eq hw]
    refine ⟨rfl, fun f h => Table.look_put_ne _ _ h, Table.look_put_self .., rfl, by simp [hw], by simp [hw],
      fun q => ?_⟩
    exact (rfl : _ = s.port q).trans (by simp [noMarks, hw])
  | true =>
    obtain ⟨c, hE, ht⟩ := s.freeEntry_eq_of_awaits hw
    rw [ht]
    refine ⟨rfl, fun f h => Table.look_put_ne _ _ h, Table.look_put_self .., rfl, by simp [hw], by simp [hw, hE],
      fun q => ?_⟩
    by_cases hq : q = 0
    · subst hq
      exact (Table.look_put_self s.ports 0 _).trans (by simp [noMarks, hw])
    · exact (Table.look_put_ne s.ports _ hq).trans (by simp [noMarks, hq, State.port])

/-- An entry with no holder drains while bursts are in flight under it, and is FREE otherwise (R17, R18). -/
theorem State.leave_leaves (e : EntryId) : leaves s (s.leave e) e s.port noMarks := by
  unfold leaves State.leave
  split_ifs with h
  · exact s.freeEntry_becomesFree e
  · exact s.setEntry_becomes e _

/-- An entry that leaves after a change of its holdings, orphan record or tick alone leaves as it would have before. -/
theorem leaves_of_entry {s u t : State} {e : EntryId} {x : Entry} {marks : Port → BitVec 8} (hu : u = s.setEntry e x)
    (hx : drainingEntry x = drainingEntry (s.entry e))
    (h : leaves u t e u.port marks) : leaves s t e s.port marks := by
  subst hu
  have hf : (drainingEntry x).inFlight = (drainingEntry (s.entry e)).inFlight := congrArg Entry.inFlight hx
  have hg : (drainingEntry x).generation = (drainingEntry (s.entry e)).generation := congrArg Entry.generation hx
  simp only [drainingEntry] at hf hg
  unfold leaves at h ⊢
  rw [State.setEntry_entry_self, hf] at h
  split_ifs at h ⊢ with h0
  · obtain ⟨h1, h2, h3, h4, h5, h6, h7⟩ := h
    exact ⟨h1, fun f hfe => (h2 f hfe).trans (s.setEntry_entry_ne x hfe), by rw [h3, State.setEntry_entry_self, hg], h4, h5, h6, h7⟩
  · obtain ⟨h1, h2, h3, h4, h5, h6, h7⟩ := h
    refine ⟨h1, fun f hfe => (h2 f hfe).trans (s.setEntry_entry_ne x hfe), ?_, h4, h5, h6, h7⟩
    rw [h3, hx]

/-- A holding removed: the entry leaves LIVE if it was the last (R17). -/
theorem State.removeHolding_loses (e : EntryId) (p : Port) :
    losesHolding s (s.removeHolding e p) e p s.port noMarks := by
  unfold losesHolding State.removeHolding
  simp only [State.modEntry_eq, State.setEntry_entry_self, List.isEmpty_iff]
  by_cases h : heldByOthers (s.entry e) p = []
  · rw [if_pos h, if_pos (show List.filter _ _ = [] from h)]
    exact leaves_of_entry (x := { s.entry e with holdings := heldByOthers (s.entry e) p }) rfl rfl (State.leave_leaves _ e)
  · rw [if_neg h, if_neg (show ¬List.filter _ _ = [] from h)]
    exact s.setEntry_becomes e _

/-- A burst finishes: the count falls, and a drained entry becomes FREE (R14, R18). -/
theorem State.lowerInFlight_ends (e : EntryId) : burstEnds s (s.lowerInFlight e) e s.port noMarks := by
  unfold burstEnds State.lowerInFlight
  simp only [State.modEntry_eq, State.setEntry_entry_self]
  by_cases h : (s.entry e).state = .draining ∧ (s.entry e).inFlight ≤ 1
  · rw [if_pos h, if_pos ⟨h.1, by omega⟩]
    have hb := State.freeEntry_becomesFree (s.setEntry e { s.entry e with inFlight := (s.entry e).inFlight - 1 }) e
    obtain ⟨h1, h2, h3, h4, h5, h6, h7⟩ := hb
    exact ⟨h1, fun f hf => (h2 f hf).trans (s.setEntry_entry_ne _ hf), by rw [h3, State.setEntry_entry_self], h4, h5, h6, h7⟩
  · rw [if_neg h, if_neg (by rintro ⟨a, b⟩; exact h ⟨a, by omega⟩)]
    exact s.setEntry_becomes e _

/-- An entry made an orphan: its record, and P0's ORPHAN notice (R12, R67, R130). -/
theorem State.makeOrphan_becomes (e : EntryId) (former : Port) :
    becomes s (s.makeOrphan e former) e (orphanedEntry (s.entry e) former s.orphanTicks) s.port (markAt 0 0x40) := by
  have h := becomes_setNotice 0 .orphan
    (s.setEntry_becomes e (orphanedEntry (s.entry e) former s.orphanTicks))
  have hm : (fun q => noMarks q ||| markAt 0 Notice.orphan.mask q) = markAt 0 0x40 := by
    funext q; simp [noMarks, Notice.mask]
  rwa [hm] at h

/-! ## Contest and recall -/

/-- What makes one entry contested is known by its entry and the RECALL notices (R7, R78). -/
theorem State.reportContested_becomes (e : EntryId) (h : (s.entry e).state ≠ .free) :
    becomes s (s.reportContested e) e (contestedEntry s.graceTicks (s.entry e)) s.port
      (fun q => if (s.entry e).state = .live ∧ q ∈ ((s.entry e).holdings.filter fun h => h.state == .overdue).map Holding.port
        then 0x04 else 0) := by
  have hb := s.setEntry_becomes e (contestedEntry s.graceTicks (s.entry e))
  have hn : (noMarks : Port → BitVec 8) = fun _ => 0 := rfl
  unfold State.reportContested
  dsimp only
  split
  · next hs => exact absurd hs h
  · next hs =>
    have hx : contestedEntry s.graceTicks (s.entry e) = { s.entry e with
        contested := true
        holdings := (s.entry e).holdings.map fun h => if h.state = .overdue then h.recall s.graceTicks false else h } := by
      simp [contestedEntry, hs, Holding.recall]
    rw [← hx, State.noticeAll_frame]
    refine ⟨rfl, hb.2.1, hb.2.2.1, rfl, rfl, rfl, fun q => ?_⟩
    refine (State.noticeAll_port _ _ q _).trans ?_
    beta_reduce
    by_cases hm : q ∈ ((s.entry e).holdings.filter fun h => h.state == .overdue).map Holding.port
    · rw [if_pos hm, if_pos ⟨hs, hm⟩]; rfl
    · rw [if_neg hm, if_neg fun h => hm h.2]; rfl
  · next hs => simpa [contestedEntry, hs, hn] using hb
  · next hs => simpa [contestedEntry, hs, hn] using hb

/-- A FREE entry is not made contested. -/
theorem State.reportContested_free (e : EntryId) (h : (s.entry e).state = .free) : s.reportContested e = s := by
  unfold State.reportContested; simp only [h]

/-- The end of a contest lifts the recalls that were not forced (R7, R79). -/
theorem State.reportUncontested_eq (e : EntryId) : s.reportUncontested e = s.setEntry e (uncontestedEntry (s.entry e)) := by
  simp [State.reportUncontested, uncontestedEntry, State.modEntry_eq, Holding.overdue]

/-- The supervisor's recall (R80). -/
theorem State.forceRecall_becomes (e : EntryId) :
    becomes s (s.forceRecall e) e
      { s.entry e with holdings := (s.entry e).holdings.map fun h => if h.collected then h.recall s.graceTicks true else h }
      s.port (fun q => if q ∈ ((s.entry e).holdings.filter Holding.collected).map Holding.port then 0x04 else 0) := by
  unfold State.forceRecall
  dsimp only
  rw [State.noticeAll_frame]
  exact ⟨rfl, fun f h => s.setEntry_entry_ne _ h, s.setEntry_entry_self e _, rfl, rfl, rfl,
    fun q => (State.noticeAll_port _ _ q _).trans (by simp [Notice.mask])⟩

/-! ## What a search of the table finds -/

theorem State.lowestFree_some {e : EntryId} (h : s.lowestFree = some e) : (s.entry e).state = .free := by
  simpa using List.find?_some h

theorem State.lowestFree_none : s.lowestFree = none ↔ ∀ e, (s.entry e).state ≠ .free := by
  simp [State.lowestFree, allEntries]

/-- The join target of a claim is SHARED and LIVE with exactly the claim's range, and has no holding of the port (R44). -/
theorem State.joinTarget_some {p : Port} {d : Descriptor} {e : EntryId} (h : s.joinTarget p d = some e) :
    d.mode = .shared ∧ (s.entry e).state = .live ∧ (s.entry e).mode = .shared ∧ (s.entry e).range = d.range ∧
      (s.entry e).holdingOf p = none := by
  unfold State.joinTarget at h
  split_ifs at h with hm
  have := List.find?_some h
  simp only [Bool.and_eq_true, beq_iff_eq, Option.isNone_iff_eq_none] at this
  exact ⟨hm, this.1.1.1, this.1.1.2, this.1.2, this.2⟩

/-- A grantable claim conflicts with no entry in use and with no claim before it, and has an entry to go to (R42). -/
theorem State.grantable_iff (earlier : List Descriptor) (p : Port) (d : Descriptor) :
    s.grantable earlier p d = true ↔
      (∀ e, (s.entry e).conflicts d = false) ∧ (∀ c ∈ earlier, c.conflicts d = false) ∧
      ((s.joinTarget p d).isSome = true ∨ s.lowestFree.isSome = true) := by
  simp [State.grantable, State.entryConflict, claimConflict, allEntries, and_assoc]

end Sys2Proof.Machine
end

