-- ==== Sys2Proof/Laws/Events.lean ====
section
/-! SUPPORT. What the operations built on the lease table do, said once: a lease tick on an entry, the giving back of a grant,
the award of one, and what part reset leaves of the pool. -/

namespace Sys2Proof.Machine

variable (s : State)

/-! ## Two parts of one event -/

theorem becomes_noticeAll {s t : State} {e : EntryId} {x : Entry} {before : Port → PortRec} {marks : Port → BitVec 8}
    (ps : List Port) (k : Notice) (h : becomes s t e x before marks) :
    becomes s (t.noticeAll ps k) e x before (fun q => marks q ||| if q ∈ ps then k.mask else 0) := by
  obtain ⟨h1, h2, h3, h4, h5, h6, h7⟩ := h
  have hp := t.noticeAll_port ps
  have hf := t.noticeAll_frame ps k
  rw [hf]
  refine ⟨?_, h2, h3, h4, h5, h6, fun q => ?_⟩
  · unfold leaseFrame; rw [h1]
  · exact (hp q k).trans (by rw [h7, flagsSet_flagsSet])

/-- An entry that is changed and then leaves, in one event. -/
theorem leaves_of_becomes {s u t : State} {e : EntryId} {x : Entry} {before : Port → PortRec} {marks more : Port → BitVec 8}
    (hu : becomes s u e x before marks) (hx : drainingEntry x = drainingEntry (s.entry e)) (h : leaves u t e u.port more) :
    leaves s t e before (fun q => marks q ||| more q) := by
  obtain ⟨u1, u2, u3, u4, u5, u6, u7⟩ := hu
  have hf : (drainingEntry x).inFlight = (drainingEntry (s.entry e)).inFlight := congrArg Entry.inFlight hx
  have hg : (drainingEntry x).generation = (drainingEntry (s.entry e)).generation := congrArg Entry.generation hx
  have ha : awaits u e = awaits s e := by simp only [awaits, u5]
  simp only [drainingEntry] at hf hg
  unfold leaves at h ⊢
  rw [u3, hf] at h
  split_ifs at h ⊢ with h0
  · obtain ⟨h1, h2, h3, h4, h5, h6, h7⟩ := h
    rw [ha, u5] at h5
    rw [ha, u5, u6] at h6
    refine ⟨?_, fun f hfe => (h2 f hfe).trans (u2 f hfe), by rw [h3, u3, hg], h4, h5, h6, fun q => ?_⟩
    · unfold leaseFrame; rw [h1, u1]
    · rw [h7, u7, flagsSet_flagsSet, ha, BitVec.or_assoc]
  · obtain ⟨h1, h2, h3, h4, h5, h6, h7⟩ := h
    refine ⟨?_, fun f hfe => (h2 f hfe).trans (u2 f hfe), by rw [h3, hx], h4.trans u4, h5.trans u5, h6.trans u6, fun q => ?_⟩
    · unfold leaseFrame; rw [h1, u1]
    · rw [h7, u7, flagsSet_flagsSet]

theorem losesHolding_of_ports {s u t : State} {e : EntryId} {p : Port} {marks : Port → BitVec 8} (before : Port → PortRec)
    (hu : u = { s with ports := u.ports }) (hb : ∀ q, u.port q = before q) (h : losesHolding u t e p u.port marks) :
    losesHolding s t e p before marks := by
  have hx : u.entry e = s.entry e := by rw [hu]; rfl
  unfold losesHolding at h ⊢
  rw [hx] at h
  split_ifs at h ⊢ with hf
  · exact leaves_of_ports before hu hb h
  · exact becomes_of_ports before hu hb h

/-! ## A lease tick on an entry (R74, R76, R81, R82, R147) -/

theorem State.tickLive_does (e : EntryId) :
    if (s.entry e).holdings ≠ [] ∧ afterTick s (s.entry e) = [] then
      leaves s (s.tickLive e) e s.port (tickMarks (s.entry e))
    else
      becomes s (s.tickLive e) e { s.entry e with tickDue := false, holdings := afterTick s (s.entry e) } s.port
        (tickMarks (s.entry e)) := by
  have hb := becomes_noticeAll ((s.entry e).ending .recalled) .revoke
    (becomes_noticeAll (if (s.entry e).contested then (s.entry e).ending .held else []) .recall
      (s.setEntry_becomes e { s.entry e with tickDue := false, holdings := afterTick s (s.entry e) }))
  have hm : (fun q => (noMarks q ||| if q ∈ (if (s.entry e).contested then (s.entry e).ending .held else []) then
      Notice.recall.mask else 0) ||| if q ∈ (s.entry e).ending .recalled then Notice.revoke.mask else 0) =
      tickMarks (s.entry e) := by
    funext q
    unfold tickMarks
    cases (s.entry e).contested <;> simp [noMarks, Notice.mask]
  rw [hm] at hb
  have hh := congrArg Entry.holdings hb.2.2.1
  unfold State.tickLive
  dsimp only
  by_cases hc : (s.entry e).holdings ≠ [] ∧ afterTick s (s.entry e) = []
  · rw [if_pos hc, if_pos]
    · have := leaves_of_becomes hb (by rfl) (State.leave_leaves _ e)
      have hz : (fun q => tickMarks (s.entry e) q ||| noMarks q) = tickMarks (s.entry e) := by
        funext q; simp [noMarks]
      rwa [hz] at this
    · simp only [Bool.and_eq_true, Bool.not_eq_true', List.isEmpty_iff, List.isEmpty_eq_false_iff]
      exact ⟨hc.1, hh.trans hc.2⟩
  · rw [if_neg hc, if_neg]
    · exact hb
    · simp only [Bool.and_eq_true, Bool.not_eq_true', List.isEmpty_iff, List.isEmpty_eq_false_iff]
      exact fun h => hc ⟨h.1, hh.symm.trans h.2⟩

/-! ## Giving back and awarding a grant (R51, R66, R67) -/

/-- A grant given back empties its slot and gives back its holding (R66, R67). -/
theorem State.giveBack_gives (p : Port) (k : SlotNo) (g : Grant) :
    givesBack s (s.giveBack p k g) p g (portsBut s p (withSlot (s.port p) k .empty)) noMarks := by
  have hp : ∀ q, (s.setSlot p k .empty).port q = portsBut s p (withSlot (s.port p) k .empty) q :=
    fun q => s.setPort_port p q _
  have hl := losesHolding_of_ports _ rfl hp ((s.setSlot p k .empty).removeHolding_loses g.handle.entry p)
  have ho := becomes_of_ports _ rfl hp ((s.setSlot p k .empty).makeOrphan_becomes g.handle.entry p)
  have hm : (fun q => noMarks q ||| if q = 0 then 0x40 else 0) = markAt 0 0x40 := by funext q; simp [noMarks, markAt]
  unfold givesBack State.giveBack
  cases hk : g.kind with
  | new => exact hl
  | joined => exact hl
  | adopted =>
    rw [if_pos rfl, hm]
    exact ho

/-- A grant awarded: written into its slot, out of the queue, with the GRANT notice (R51, R54). -/
theorem State.award_eq (p : Port) (k : SlotNo) (d : Descriptor) (h : Handle) (kind : GrantKind) :
    s.award p k d h kind = { s.setPort p (flagsSet (withSlot (s.port p) k (.granted d
        { handle := h, kind := kind, term := ((s.termsOf p).resolve d.term).1, clamped := ((s.termsOf p).resolve d.term).2,
          collect := s.collectTicks, tickDue := false })) 0x01) with waitQueue := s.waitQueue.erase ⟨p, k⟩ } := by
  simp [State.award, State.setNotice_eq, State.setSlot_eq, Notice.mask, State.setPort, State.port]

/-- A range overlaps the port's own when it overlaps that of a holding, or of a WAITING or GRANTED claim (R29). -/
theorem State.overlapsOwn_iff (p : Port) (r : PageRange) :
    s.overlapsOwn p r = true ↔
      (∃ e, ((s.entry e).holdingOf p).isSome = true ∧ (s.entry e).range.overlaps r = true) ∨
      ∃ k, ∃ d ∈ liveClaim (s.slot p k), d.range.overlaps r = true := by
  simp only [State.overlapsOwn, allEntries, allSlots, Bool.or_eq_true, List.any_eq_true, List.mem_finRange, true_and,
    Bool.and_eq_true]
  refine or_congr Iff.rfl (exists_congr fun k => ?_)
  cases s.slot p k <;> simp [liveClaim]

/-! ## Part reset and the pool (R110) -/

/-- What part reset does before the parts take their values touches the pool and the draw counter alone, and keeps the
pool's form. -/
theorem State.cutShort_frame :
    s.cutShort = { s with poolData := s.cutShort.poolData, poolParity := s.cutShort.poolParity,
                          freeDraws := s.cutShort.freeDraws } ∧ (PoolForm s → PoolForm s.cutShort) := by
  have lane : ∀ (u : State) (n a : Nat) (b : Byte),
      u.tearLane n a b = { u with poolData := (u.tearLane n a b).poolData, poolParity := (u.tearLane n a b).poolParity } ∧
      (PoolForm u → PoolForm (u.tearLane n a b)) := by
    intro u n a b
    unfold State.tearLane
    dsimp only
    split_ifs
    · exact ⟨rfl, id⟩
    · exact ⟨rfl, u.setLane_wf _ _ _⟩
    · exact ⟨rfl, u.setLane_wf _ _ _⟩
  have all : ∀ (l : List (Fin 4)) (be : BitVec 4) (n base : Nat) (w : Word) (u : State),
      let t := l.foldl (fun t i => if be.getLsbD i.val then t.tearLane n (base + i.val) (laneByte w i) else t) u
      t = { u with poolData := t.poolData, poolParity := t.poolParity } ∧ (PoolForm u → PoolForm t) := by
    intro l be n base w
    induction l with
    | nil => exact fun u => ⟨rfl, id⟩
    | cons i l ih =>
      intro u
      simp only [List.foldl_cons]
      split_ifs
      · obtain ⟨h1, h2⟩ := ih (u.tearLane n (base + i.val) (laneByte w i))
        obtain ⟨h3, h4⟩ := lane u n (base + i.val) (laneByte w i)
        refine ⟨?_, fun h => h2 (h4 h)⟩
        rw [h1, h3]
      · exact ih u
  unfold State.cutShort
  split
  · exact ⟨rfl, id⟩
  · split
    · exact ⟨rfl, id⟩
    · split
      · exact ⟨rfl, id⟩
      · unfold State.tearWord
        dsimp only
        split_ifs
        · exact ⟨rfl, id⟩
        · obtain ⟨_, h1, h2⟩ := State.writeWord_stores { s with freeDraws := s.freeDraws + 1 } (byteAddr _) _ _
          exact ⟨by rw [h1], h2⟩
        · obtain ⟨h1, h2⟩ := all lanes _ _ _ _ { s with freeDraws := s.freeDraws + 1 }
          exact ⟨by rw [h1], h2⟩

end Sys2Proof.Machine
end

