-- ==== Sys2Proof/Laws/Ticks.lean ====
section
/-! SUPPORT. The lease tick's events on entries and slots, each said once, and the taking of every tick that waits (R116). -/

namespace Sys2Proof.Machine

variable (s : State)

/-! ## One event -/

theorem State.tickOrphan_takes {e : EntryId} (h : (s.entry e).state = .orphaned) : tickTakenAt s (s.tickOrphan e) e := by
  cases ho : (s.entry e).orphan with
  | none => simp only [tickTakenAt, State.tickOrphan, h, ho, State.modEntry_eq]
  | some o =>
    have hl := leaves_setNotice 0 .orphanEnd (s.leave_leaves e)
    have hm : (fun q => noMarks q ||| markAt 0 Notice.orphanEnd.mask q) = markAt 0 0x80 := by
      funext q; simp [noMarks, Notice.mask]
    rw [hm] at hl
    obtain ⟨f, c, b⟩ := o
    cases b
    · simp [tickTakenAt, State.tickOrphan, h, ho, State.modEntry_eq]
    · by_cases hc : c ≤ 1#16
      · simpa [tickTakenAt, State.tickOrphan, h, ho, hc] using hl
      · simp [tickTakenAt, State.tickOrphan, h, ho, hc, State.modEntry_eq]

/-- A lease tick's event on an entry, by the entry's state (R116). -/
theorem State.tickEntry_takes (e : EntryId) : tickTakenAt s (s.tickEntry e) e := by
  cases h : (s.entry e).state with
  | free => simp only [tickTakenAt, State.tickEntry, h, State.modEntry_eq]
  | draining => simp only [tickTakenAt, State.tickEntry, h, State.modEntry_eq]
  | live => simpa only [tickTakenAt, State.tickEntry, h] using s.tickLive_does e
  | orphaned => simpa only [State.tickEntry, h] using s.tickOrphan_takes h

/-- A grant given back with a notice at its port. -/
theorem givesBack_setNotice {s t : State} {p : Port} {g : Grant} {before : Port → PortRec} (q : Port) (k : Notice)
    (h : givesBack s t p g before noMarks) : givesBack s (t.setNotice q k) p g before (markAt q k.mask) := by
  have hz : (fun r => noMarks r ||| markAt q k.mask r) = markAt q k.mask := by funext r; simp [noMarks]
  have ho : (fun r => (noMarks r ||| if r = 0 then (0x40 : BitVec 8) else 0) ||| markAt q k.mask r) =
      fun r => markAt q k.mask r ||| if r = 0 then 0x40 else 0 := by
    funext r; simp [noMarks, BitVec.or_comm]
  unfold givesBack losesHolding at h ⊢
  split_ifs at h ⊢
  · have := becomes_setNotice q k h; rwa [ho] at this
  · have := leaves_setNotice q k h; rwa [hz] at this
  · have := becomes_setNotice q k h; rwa [hz] at this

/-- A lease tick's event on a slot (R64 to R67). -/
theorem State.tickSlot_takes (p : Port) (k : SlotNo) : tickTakenIn s (s.tickSlot p k) p k := by
  cases h : s.slot p k with
  | empty => simp only [tickTakenIn, State.tickSlot, h]
  | waiting d => simp only [tickTakenIn, State.tickSlot, h]
  | denied d c => simp only [tickTakenIn, State.tickSlot, h]
  | granted d g =>
    by_cases hc : g.collect ≤ 1
    · have hn : ¬1 < g.collect := by bv_omega
      simp only [tickTakenIn, State.tickSlot, h, if_neg hn, if_pos hc]
      exact givesBack_setNotice p .lapse (s.giveBack_gives p k g)
    · have hn : 1 < g.collect := by bv_omega
      simp only [tickTakenIn, State.tickSlot, h, if_pos hn, if_neg hc, State.setSlot_eq]

/-! ## Where ticks wait afterwards -/

theorem flagsSet_slot (r : PortRec) (m : BitVec 8) (k : SlotNo) : (flagsSet r m).slots.look k = r.slots.look k := rfl

/-- A tick taken at an entry waits there no more, and every other place keeps what waits there. -/
theorem tickTakenAt_due {s t : State} {e : EntryId} (h : tickTakenAt s t e) :
    (t.entry e).tickDue = false ∧ (∀ f, f ≠ e → t.entry f = s.entry f) ∧ ∀ p k, t.slot p k = s.slot p k := by
  have hb : ∀ {x : Entry} {m}, x.tickDue = false → becomes s t e x s.port m →
      (t.entry e).tickDue = false ∧ (∀ f, f ≠ e → t.entry f = s.entry f) ∧ ∀ p k, t.slot p k = s.slot p k := by
    rintro x m hx ⟨-, h2, h3, -, -, -, h7⟩
    exact ⟨by rw [h3, hx], h2, fun p k => by rw [State.slot, h7]; rfl⟩
  have hl : ∀ {m}, leaves s t e s.port m →
      (t.entry e).tickDue = false ∧ (∀ f, f ≠ e → t.entry f = s.entry f) ∧ ∀ p k, t.slot p k = s.slot p k := by
    intro m hl
    unfold leaves at hl
    split_ifs at hl
    · obtain ⟨-, h2, h3, -, -, -, h7⟩ := hl
      exact ⟨by rw [h3]; rfl, h2, fun p k => by rw [State.slot, h7]; rfl⟩
    · exact hb rfl hl
  have hs : ∀ {x : Entry}, x.tickDue = false → t = s.setEntry e x →
      (t.entry e).tickDue = false ∧ (∀ f, f ≠ e → t.entry f = s.entry f) ∧ ∀ p k, t.slot p k = s.slot p k := by
    rintro x hx rfl
    exact ⟨by rw [State.setEntry_entry_self, hx], fun f hf => s.setEntry_entry_ne x hf, fun _ _ => rfl⟩
  unfold tickTakenAt at h
  dsimp only at h
  split at h
  · exact hs rfl h
  · exact hs rfl h
  · split_ifs at h
    · exact hl h
    · exact hb rfl h
  · split at h
    · exact hs rfl h
    · split_ifs at h
      · exact hl h
      all_goals exact hs rfl h

/-- A grant given back brings no tick to any entry, and leaves the slots but the one it emptied. -/
theorem givesBack_due {s t : State} {p : Port} {g : Grant} {before : Port → PortRec} {m : Port → BitVec 8}
    (h : givesBack s t p g before m) :
    (∀ f, (s.entry f).tickDue = false → (t.entry f).tickDue = false) ∧ ∀ q k, t.slot q k = (before q).slots.look k := by
  have hb : ∀ {x : Entry} {m}, ((s.entry g.handle.entry).tickDue = false → x.tickDue = false) →
      becomes s t g.handle.entry x before m →
      (∀ f, (s.entry f).tickDue = false → (t.entry f).tickDue = false) ∧ ∀ q k, t.slot q k = (before q).slots.look k := by
    rintro x m hx ⟨-, h2, h3, -, -, -, h7⟩
    refine ⟨fun f hf => ?_, fun q k => by rw [State.slot, h7]; rfl⟩
    by_cases he : f = g.handle.entry
    · subst he; rw [h3]; exact hx hf
    · rw [h2 f he]; exact hf
  unfold givesBack losesHolding leaves at h
  split_ifs at h
  · exact hb (fun hf => by simp [orphanedEntry, hf]) h
  · obtain ⟨-, h2, h3, -, -, -, h7⟩ := h
    refine ⟨fun f hf => ?_, fun q k => by rw [State.slot, h7]; rfl⟩
    by_cases he : f = g.handle.entry
    · subst he; rw [h3]; rfl
    · rw [h2 f he]; exact hf
  · exact hb (fun _ => rfl) h
  · exact hb (x := { s.entry g.handle.entry with holdings := heldByOthers (s.entry g.handle.entry) p }) (fun hf => hf) h

/-- A tick taken at a slot waits there no more; no entry and no other slot comes to have one waiting. -/
theorem tickTakenIn_due {s t : State} {p : Port} {k : SlotNo} (h : tickTakenIn s t p k) :
    (t.slot p k).tickDue = false ∧ (∀ f, (s.entry f).tickDue = false → (t.entry f).tickDue = false) ∧
    ∀ q j, (s.slot q j).tickDue = false → (t.slot q j).tickDue = false := by
  unfold tickTakenIn at h
  split at h
  · next hs => subst h; exact ⟨by rw [hs]; rfl, fun _ h => h, fun _ _ h => h⟩
  · next hs => subst h; exact ⟨by rw [hs]; rfl, fun _ h => h, fun _ _ h => h⟩
  · next hs => subst h; exact ⟨by rw [hs]; rfl, fun _ h => h, fun _ _ h => h⟩
  · next d g hs =>
    split_ifs at h
    · rw [← State.setSlot_eq] at h
      subst h
      refine ⟨by rw [State.setSlot_slot, if_pos ⟨rfl, rfl⟩]; rfl, fun _ h => h, fun q j hj => ?_⟩
      rw [State.setSlot_slot]
      split_ifs
      · rfl
      · exact hj
    · obtain ⟨he, hp⟩ := givesBack_due h
      have hq : ∀ q j, t.slot q j = if q = p ∧ j = k then .empty else s.slot q j := fun q j => by
        rw [hp, ← State.setPort_port, ← State.setSlot_eq, ← State.setSlot_slot]; rfl
      refine ⟨by rw [hq, if_pos ⟨rfl, rfl⟩]; rfl, he, fun q j hj => ?_⟩
      rw [hq]
      split_ifs
      · rfl
      · exact hj

/-! ## The frame of a tick -/

theorem tickTakenAt_frame {s t : State} {e : EntryId} (h : tickTakenAt s t e) : leaseFrame s t := by
  have hs : ∀ {x : Entry}, t = s.setEntry e x → leaseFrame s t := by rintro x rfl; rfl
  have hl : ∀ {m}, leaves s t e s.port m → leaseFrame s t := by
    intro m hl; unfold leaves at hl; split_ifs at hl <;> exact hl.1
  unfold tickTakenAt at h
  dsimp only at h
  split at h
  · exact hs h
  · exact hs h
  · split_ifs at h
    · exact hl h
    · exact h.1
  · split at h
    · exact hs h
    · split_ifs at h
      · exact hl h
      all_goals exact hs h

theorem tickTakenIn_frame {s t : State} {p : Port} {k : SlotNo} (h : tickTakenIn s t p k) : leaseFrame s t := by
  unfold tickTakenIn at h
  split at h
  · subst h; rfl
  · subst h; rfl
  · subst h; rfl
  · split_ifs at h
    · subst h; rfl
    · unfold givesBack losesHolding leaves at h
      split_ifs at h <;> exact h.1

/-- The taking of ticks leaves the clock, the pool, the queue and the configuration alone. -/
theorem ticksTaken_frame {s t : State} (h : ticksTaken s t) : leaseFrame s t := by
  induction h with
  | refl => rfl
  | tail _ h ih =>
    have h2 := h.elim (fun ⟨_, _, h⟩ => tickTakenAt_frame h) fun ⟨_, _, _, h⟩ => tickTakenIn_frame h
    unfold leaseFrame at ih h2 ⊢
    rw [h2, ih]

/-! ## Every tick that waits -/

theorem ticksTaken_settleEntry (e : EntryId) :
    ticksTaken s (s.settleEntry e) ∧ ((s.settleEntry e).entry e).tickDue = false ∧
    (∀ f, (s.entry f).tickDue = false → ((s.settleEntry e).entry f).tickDue = false) ∧
    ∀ p k, (s.settleEntry e).slot p k = s.slot p k := by
  unfold State.settleEntry
  split_ifs with h
  · have ht := s.tickEntry_takes e
    obtain ⟨h1, h2, h3⟩ := tickTakenAt_due ht
    refine ⟨.single (.inl ⟨e, h, ht⟩), h1, fun f hf => ?_, h3⟩
    by_cases he : f = e
    · rw [he]; exact h1
    · rw [h2 f he]; exact hf
  · exact ⟨.refl, by simpa using h, fun _ h => h, fun _ _ => rfl⟩

theorem ticksTaken_settleSlot (p : Port) (k : SlotNo) :
    ticksTaken s (s.settleSlot p k) ∧ ((s.settleSlot p k).slot p k).tickDue = false ∧
    (∀ f, (s.entry f).tickDue = false → ((s.settleSlot p k).entry f).tickDue = false) ∧
    ∀ q j, (s.slot q j).tickDue = false → ((s.settleSlot p k).slot q j).tickDue = false := by
  unfold State.settleSlot
  split_ifs with h
  · have ht := s.tickSlot_takes p k
    exact ⟨.single (.inr ⟨p, k, h, ht⟩), tickTakenIn_due ht⟩
  · exact ⟨.refl, by simpa using h, fun _ h => h, fun _ _ h => h⟩

theorem settleEntries (l : List EntryId) (s : State) : let t := l.foldl State.settleEntry s
    ticksTaken s t ∧ (∀ e ∈ l, (t.entry e).tickDue = false) ∧
    (∀ f, (s.entry f).tickDue = false → (t.entry f).tickDue = false) ∧ ∀ p k, t.slot p k = s.slot p k := by
  induction l generalizing s with
  | nil => exact ⟨.refl, by simp, fun _ h => h, fun _ _ => rfl⟩
  | cons e l ih =>
    obtain ⟨a1, a2, a3, a4⟩ := ticksTaken_settleEntry s e
    obtain ⟨b1, b2, b3, b4⟩ := ih (s.settleEntry e)
    refine ⟨a1.trans b1, fun f hf => ?_, fun f hf => b3 f (a3 f hf), fun p k => (b4 p k).trans (a4 p k)⟩
    rcases List.mem_cons.1 hf with rfl | hf
    · exact b3 f a2
    · exact b2 f hf

theorem settleSlots (l : List ClaimId) (s : State) : let t := l.foldl (fun s c => s.settleSlot c.port c.slot) s
    ticksTaken s t ∧ (∀ c ∈ l, (t.slot c.port c.slot).tickDue = false) ∧
    (∀ f, (s.entry f).tickDue = false → (t.entry f).tickDue = false) ∧
    ∀ q j, (s.slot q j).tickDue = false → (t.slot q j).tickDue = false := by
  induction l generalizing s with
  | nil => exact ⟨.refl, by simp, fun _ h => h, fun _ _ h => h⟩
  | cons c l ih =>
    obtain ⟨a1, a2, a3, a4⟩ := ticksTaken_settleSlot s c.port c.slot
    obtain ⟨b1, b2, b3, b4⟩ := ih (s.settleSlot c.port c.slot)
    refine ⟨a1.trans b1, fun f hf => ?_, fun f hf => b3 f (a3 f hf), fun q j h => b4 q j (a4 q j h)⟩
    rcases List.mem_cons.1 hf with rfl | hf
    · exact b4 _ _ a2
    · exact b2 f hf

theorem mem_allClaims (c : ClaimId) : c ∈ allClaims := by
  simp only [allClaims, allPorts, allSlots, List.mem_flatMap, List.mem_map, List.mem_finRange, true_and]
  exact ⟨c.port, c.slot, rfl⟩

/-- Every tick that waits is taken, one event after another, and none waits afterwards (R116). -/
theorem State.settleTick_takes : ticksTaken s s.settleTick ∧ settled s.settleTick := by
  obtain ⟨a1, a2, -, -⟩ := settleEntries allEntries s
  obtain ⟨b1, b2, b3, -⟩ := settleSlots allClaims (allEntries.foldl State.settleEntry s)
  exact ⟨a1.trans b1, fun e => b3 e (a2 e (List.mem_finRange e)), fun p k => b2 ⟨p, k⟩ (mem_allClaims _)⟩

/-- With no tick waiting there is nothing to take. -/
theorem State.settleTick_of_settled (h : settled s) : s.settleTick = s := by
  have he : ∀ l : List EntryId, l.foldl State.settleEntry s = s := fun l => by
    induction l with
    | nil => rfl
    | cons e l ih => rw [List.foldl_cons]; simpa [State.settleEntry, h.1 e] using ih
  have hs : ∀ l : List ClaimId, l.foldl (fun s c => s.settleSlot c.port c.slot) s = s := fun l => by
    induction l with
    | nil => rfl
    | cons c l ih => rw [List.foldl_cons]; simpa [State.settleSlot, h.2 c.port c.slot] using ih
  unfold State.settleTick
  rw [he, hs]

end Sys2Proof.Machine
end

