-- ==== Sys2Proof/Tests/Slice0.lean ====
section
/-! SUPPORT. Tests of single steps, whose expected values are read from the spec's rules, tables and worked examples, and a
witness for every obligation that has hypotheses. -/

namespace Sys2Proof.Tests

-- One theorem after another: each kernel evaluation has a thread of its own otherwise.
set_option Elab.async false

open Sys2Proof Sys2Proof.Machine

/-! ## Small states -/

/-- The state after a command; the same state where there is none. -/
def after (c : Instr) (s : State) : State :=
  match exec c s with
  | .next t => t
  | .fault _ => s
  | .refused _ => s

/-- The ports opened by the supervisor. -/
def openAt (ps : List Port) (s : State) : State := ps.foldl (fun s p => s.modPort p fun r => { r with state := .opened }) s

/-- The port in a stage of its close procedure. -/
def closingAt (p : Port) (st : CloseStage) (s : State) : State :=
  s.modPort p fun r => { r with state := .closing .command st }

def holding (p : Port) (st : HoldingState) (term : BitVec 16) (grace : BitVec 8) : Holding :=
  { port := p, state := st, term := term, granted := 256, grace := grace, forced := false }

def liveEntry (m : Mode) (range : PageRange) (hs : List Holding) : Entry :=
  { Entry.unused with state := .live, generation := 2, mode := m, range := range, holdings := hs }

def orphanEntry (range : PageRange) (o : OrphanRecord) : Entry :=
  { Entry.unused with state := .orphaned, generation := 3, mode := .exclusive, range := range, orphan := some o }

/-- Reset with P1 to P3 open and CMD_ARG loaded. -/
def board (arg : Word) : State := { openAt [1, 2, 3] State.reset with cmdArg := arg }

/-- P1's lease of pages 64 to 71 at entry 6, EXCLUSIVE (Table 24). -/
def leased (st : HoldingState) (term : BitVec 16) (grace : BitVec 8) : State :=
  (board 0).setEntry 6 (liveEntry .exclusive ⟨64, 8⟩ [holding 1 st term grace])

/-- The contested entry 24 (Table 55): P1 HELD with 20 ticks left, P2 OVERDUE. -/
def shared24 : State :=
  (board 0x18020000).setEntry 24 (liveEntry .shared ⟨7168, 32⟩ [holding 1 .held 20 0, holding 2 .overdue 0 0])

def newGrant (e : EntryId) (collect : BitVec 8) (due : Bool) : Grant :=
  { handle := ⟨e, 2⟩, kind := .new, term := 256, clamped := false, collect := collect, tickDue := due }

def claimOf (range : PageRange) (m : Mode) : Descriptor := { range := range, mode := m, noWait := false, term := 0 }

/-- A grant of P1 S0 on pages 64 to 71 at entry 6, with its AWARDED holding. -/
def awarded (collect : BitVec 8) (due : Bool) : State :=
  (leased .awarded 256 0).setSlot 1 0 (.granted (claimOf ⟨64, 8⟩ .exclusive) (newGrant 6 collect due))

/-- P3 S0 waits for pages 7180 to 7183 against entry 24, contested. -/
def waiting24 : State :=
  let s := shared24.modEntry 24 fun x => { x with contested := true }
  { s.setSlot 3 0 (.waiting (claimOf ⟨7180, 4⟩ .exclusive)) with waitQueue := [⟨3, 0⟩] }

/-- A burst of P1 under entry 6 at the memory port, with its entry in the write buffer or its read. -/
def writing (done : Nat) : State :=
  { (leased .held 9 0).modEntry 6 (fun x => { x with inFlight := 1 }) |>.modPort 1 fun r =>
      { r with writeBuffer := [{ addr := 0x4000, enables := 0xF, words := [0x44332211, 0x88776655], entry := 6 }] } with
    memPort := some { port := 1, kind := .write [0x44332211, 0x88776655], addr := 0x4000, enables := 0xF, entry := 6,
                      done := done, got := [], parityError := false } }

def reading (len : BitVec 4) (done : Nat) : State :=
  { (leased .held 9 0).modEntry 6 (fun x => { x with inFlight := 1 }) |>.modPort 1 fun r =>
      { r with read := some { addr := 0x4000, enables := 0x3, len := len, stage := .accepted 6 } } with
    memPort := some { port := 1, kind := .read len, addr := 0x4000, enables := 0x3, entry := 6, done := done, got := [],
                      parityError := false } }

/-! ## Well-formed terms -/

theorem test_poolWrite_without_words_refused : (Instr.poolWrite 0 0 0xF []).wellFormed = false := by decide

theorem test_poolWrite_of_17_words_refused : (Instr.poolWrite 0 0 0xF (List.replicate 17 0)).wellFormed = false := by decide

theorem test_unknownCommand_with_known_code_refused : (Instr.unknownCommand 0 0 8).wellFormed = false := by decide

theorem test_malformed_poolWrite : exec (.poolWrite 1 0 0xF []) (board 0) = .refused .malformed := by rfl

/-! ## Reset and lines -/

/-- R135: every port is CLOSED while NRESET is asserted, and the result word is none. -/
theorem test_nreset : let t := after .nreset { board 0 with result := some ⟨7, .ok⟩ }
    (t.port 0).state = .closed ∧ (t.port 3).state = .closed ∧ t.result = none ∧ t.prescaleCounter = 249 := by decide +kernel

/-- Table 51 step 1. -/
theorem test_nresetRelease : let t := after .nresetRelease (after .nreset State.reset)
    (t.port 0).state = .opened ∧ (t.port 1).state = .closed := by decide +kernel

/-- R123: an OPEN port begins to close with cause LINE. -/
theorem test_portResetLineAssert : let t := after (.portResetLineAssert 2) (board 0)
    (t.port 2).state = .closing .line .second ∧ (t.port 2).lineHeld = true := by decide +kernel

/-- Recovery by adoption, event 3: P2 stays CLOSED when its line is released. -/
theorem test_portResetLineRelease :
    ((after (.portResetLineRelease 2) (State.reset.modPort 2 fun r => { r with lineHeld := true })).port 2).state = .closed := by
  decide +kernel

/-! ## The clock -/

/-- R112: the prescale stage reloads and sends one pulse. -/
theorem test_prescaleUnderflow : let t := after .prescaleUnderflow { State.reset with prescaleCounter := 0 }
    t.prescaleCounter = 249 ∧ t.tickCounter = 158 := by decide +kernel

/-- Table 55, event 3: one tick takes P2's grace from 8 to 7. -/
theorem test_leaseTick : let t := after .leaseTick ((board 0).setEntry 24 (liveEntry .shared ⟨7168, 32⟩
      [holding 1 .held 256 0, holding 2 .recalled 0 8]))
    ((t.entry 24).holdings.map fun h => (h.term, h.grace)) = [(255, 0), (0, 7)] ∧ t.leaseTime = 1 := by decide +kernel

/-- R117: LEASE_TIME goes from 65535 to 0. -/
theorem test_leaseTick_wraps : (after .leaseTick { State.reset with leaseTime := 65535 }).leaseTime = 0 := by decide +kernel

/-- R76: the term of an uncontested holding ends in OVERDUE. -/
theorem test_termEnd : (((after (.termEnd 6 1) ((leased .held 1 0).modEntry 6 fun x => { x with tickDue := true })).entry 6).holdingState 1)
    = some .overdue := by decide +kernel

/-- Table 55, event 9: the last holding is revoked with a burst in flight, so the entry drains. -/
theorem test_graceEnd : let t := after (.graceEnd 6 1) ((leased .recalled 0 1).modEntry 6 fun x =>
      { x with tickDue := true, inFlight := 1, contested := true })
    (t.entry 6).state = .draining ∧ (t.entry 6).contested = true ∧ (t.port 1).noticesPending = 0x08 := by decide +kernel

/-- R65 and R66: a grant lapses, its entry is FREE and LAPSE is set. -/
theorem test_lapse : let t := after (.lapse 1 0) (awarded 1 true)
    t.slot 1 0 = .empty ∧ (t.entry 6).state = .free ∧ (t.port 1).noticesPending = 0x02 := by decide +kernel

/-- R147: the entry of an expired orphan becomes FREE, with ORPHAN_END at P0. -/
theorem test_orphanExpiry : let t := after (.orphanExpiry 17) ((board 0).setEntry 17
      { orphanEntry ⟨6000, 64⟩ ⟨2, 1, true⟩ with tickDue := true })
    (t.entry 17).state = .free ∧ (t.entry 17).generation = 3 ∧ (t.port 0).noticesPending = 0x80 := by decide +kernel

/-- R116: the tick that waits at P2's lease as the port's close makes it an orphan lowers the orphan's counter. -/
theorem test_tick_not_lost_at_close :
    let s := closingAt 2 .fourth { (board 0).setEntry 17 (liveEntry .exclusive ⟨6000, 64⟩ [holding 2 .held 1 0]) with orphanTicks := 5 }
    let t := after (.orphanExpiry 17) (after (.closeFourthStage 2) (after .leaseTick s))
    (t.entry 17).orphan = some ⟨2, 4, true⟩ ∧ (t.entry 17).tickDue = false := by decide +kernel

/-- R116 and R67: the lapse of an adopted grant on one tick loads the orphan counter, which the next tick lowers. -/
theorem test_tick_after_adopted_lapse :
    let s := { (leased .awarded 256 0).setSlot 1 0 (.granted (claimOf ⟨64, 8⟩ .exclusive)
      { newGrant 6 1 false with kind := .adopted }) with orphanTicks := 5 }
    let t := after .leaseTick (after .leaseTick s)
    (t.entry 6).orphan = some ⟨1, 4, true⟩ ∧ (t.port 1).noticesPending = 0x02 := by decide +kernel

/-! ## The pool -/

/-- R96 and R99: a write under an EXCLUSIVE holding is accepted and counted. -/
theorem test_poolWrite : let t := after (.poolWrite 1 0x4000 0xF [1, 2]) (leased .held 9 0)
    (t.port 1).answer = .done [] ∧ (t.entry 6).inFlight = 1 ∧ (t.port 1).writeBuffer.length = 1 := by decide +kernel

/-- R97: two words from the last word of a page are refused with ALIGN. -/
theorem test_poolWrite_over_page : ((after (.poolWrite 1 0x40FF 0xF [1, 2]) (leased .held 9 0)).port 1).answer = .refuse .align := by
  decide +kernel

/-- Table 55, event 8: a RECALLED holding permits the read at 700800h. -/
theorem test_poolRead : let t := after (.poolRead 1 0x1C0200 0xF 15) ((board 0).setEntry 24 (liveEntry .shared ⟨7168, 32⟩
      [holding 1 .recalled 0 1]))
    (t.entry 24).inFlight = 1 ∧ (t.port 1).answer = .none := by decide +kernel

/-- Table 55, event 11: without a covering entry the read is refused with NOT_HELD, and a valid record takes more. -/
theorem test_poolRead_not_held : let t := after (.poolRead 1 0x1C0200 0xF 15) ((board 0).modPort 1 fun r =>
      { r with fault := some ⟨.renewDenied, .queued ⟨24, 2⟩, false⟩ })
    (t.port 1).answer = .refuse .notHeld ∧ (t.port 1).fault = some ⟨.renewDenied, .queued ⟨24, 2⟩, true⟩ := by decide +kernel

/-- R103: a held read is judged once the buffer is empty; under an AWARDED holding it is refused (Table 23). -/
theorem test_heldReadJudge : let t := after (.heldReadJudge 1) ((leased .awarded 256 0).modPort 1 fun r =>
      { r with read := some { addr := 0x4000, enables := 0xF, len := 0, stage := .held } })
    (t.port 1).answer = .refuse .notHeld ∧ (t.port 1).read = none := by decide +kernel

/-- R105: the pointer names the port after the one whose burst started. -/
theorem test_burstStart : let t := after .burstStart { writing 0 with memPort := none, pointer := 2 }
    t.memPort.map ActiveBurst.port = some 1 ∧ t.pointer = 2 := by decide +kernel

/-- R102 and R94: lane 0 lies at the lowest address (that it is bits 7 to 0 of the word is the model's choice,
notes/assumptions/31.md); R108: the nine bits of a byte hold an odd number of ones. -/
theorem test_poolWordReady_write : let t := after (.poolWordReady .sram) (writing 0)
    t.poolData = [(0x10000, 0x11), (0x10001, 0x22), (0x10002, 0x33), (0x10003, 0x44)] ∧
    t.poolParity = [(0x10000, true), (0x10001, true), (0x10002, true), (0x10003, true)] := by decide +kernel

/-- R104 and R109: disabled lanes read zero, and a wrong parity bit of an enabled one refuses the read. -/
theorem test_poolWordReady_read :
    ((after (.poolWordReady (.lines 0x44332211 0xF)) (reading 0 0)).port 1).answer = .done [0x2211] ∧
    ((after (.poolWordReady (.lines 0x44332210 0xF)) (reading 0 0)).port 1).answer = .refuse .poolParity := by decide +kernel

/-- R159: the words of a read in their order, the answer with the last of them; a refused one returns no word. -/
theorem test_answerBeats :
    let lines := fun s : State => (s.answerBeats 1).map fun b => (b.data, b.ans, b.code)
    lines (after (.poolWordReady (.lines 4 0xE)) (after (.poolWordReady (.lines 3 0xF)) (reading 1 0))) =
      [(some 3, 0, 0), (some 4, 1, 0)] ∧
    lines (after (.poolWordReady (.lines 4 0xF)) (after (.poolWordReady (.lines 3 0xF)) (reading 1 0))) = [(none, 3, 12)] ∧
    lines (reading 1 0) = [] := by decide +kernel

/-! ## Claims -/

/-- Table 55, event 10: when nothing conflicts any more the claim is granted in the lowest FREE entry. -/
theorem test_evaluation : let t := after .evaluation { waiting24.setEntry 24 { Entry.unused with generation := 2 } with evalCalled := true }
    (t.entry 0).range = ⟨7180, 4⟩ ∧ (t.entry 0).generation = 1 ∧ t.waitQueue = [] ∧ (t.port 3).noticesPending = 0x01 := by
  decide +kernel

/-- Table 51 step 6: the supervisor's claim of the whole pool. -/
theorem test_slotDescB : let t := after (.slotDescB 0 0 0 0x80000000) (State.reset.modPort 0 fun r =>
      { r with staging := r.staging.put 0 ⟨0, 8192⟩ })
    t.entry 0 = { Entry.unused with state := .live, generation := 1, mode := .exclusive, range := ⟨0, 8192⟩,
                                    holdings := [Holding.award 0 256] } ∧
    (t.slot 0 0).statusWord 0 = 0x00011002 ∧ (t.port 0).noticesPending = 0x01 := by decide +kernel

/-- Table 55, event 1: P3's claim waits, entry 24 is contested and P2's OVERDUE holding recalled with grace 8. -/
theorem test_slotDescB_contests : let t := after (.slotDescB 3 0 0 0x80000000) (shared24.modPort 3 fun r =>
      { r with staging := r.staging.put 0 ⟨7180, 4⟩ })
    (t.entry 24).contested = true ∧ (t.entry 24).holdings = [holding 1 .held 20 0, holding 2 .recalled 0 8] ∧
    (t.port 2).noticesPending = 0x04 ∧ t.waitQueue = [⟨3, 0⟩] := by decide +kernel

/-- R34 and R56: the cancelled claim leaves the queue, and the entry it alone contested is not contested any more. -/
theorem test_slotCancel : let t := after (.slotCancel 3 0 0 0) waiting24
    t.waitQueue = [] ∧ (t.entry 24).contested = false ∧ t.slot 3 0 = .empty := by decide +kernel

/-- Table 51 step 7: the grant word of handle (0, 1) is 00010006h. -/
theorem test_slotCollect : let s := after (.slotDescB 0 0 0 0x80000000) (State.reset.modPort 0 fun r =>
      { r with staging := r.staging.put 0 ⟨0, 8192⟩ })
    let t := after (.slotCollect 0 0 0) s
    (t.port 0).answer = .done [0x00010006] ∧ (t.entry 0).holdings = [holding 0 .held 256 0] := by decide +kernel

/-! ## The holding queue -/

/-- Table 51 step 9: 00010000h is a RELEASE of entry 0, generation 1. -/
theorem test_holdQueue : ((after (.holdQueue 0 0 0x00010000) State.reset).port 0).holdQueue = [⟨.release, ⟨0, 1⟩, 0⟩] := by
  decide +kernel

/-- Table 55, event 4: P2's release leaves entry 24 LIVE with P1's holding. -/
theorem test_release : let t := after (.release 2) (shared24.modPort 2 fun r => { r with holdQueue := [⟨.release, ⟨24, 2⟩, 0⟩] })
    (t.entry 24).state = .live ∧ (t.entry 24).holdings = [holding 1 .held 20 0] ∧ (t.port 2).holdQueue = [] := by decide +kernel

/-- Table 55, event 2: P1 is HELD with term 256. -/
theorem test_renew : ((after (.renew 1) (shared24.modPort 1 fun r => { r with holdQueue := [⟨.renew, ⟨24, 2⟩, 0⟩] })).entry 24).holdingOf 1
    = some (holding 1 .held 256 0) := by decide +kernel

/-- Table 55, event 6: a RECALLED holding is not renewed. -/
theorem test_renew_denied : let t := after (.renew 1) ((leased .recalled 0 8).modPort 1 fun r => { r with holdQueue := [⟨.renew, ⟨6, 2⟩, 0⟩] })
    (t.port 1).fault = some ⟨.renewDenied, .queued ⟨6, 2⟩, false⟩ ∧ (t.port 1).noticesPending = 0x10 := by decide +kernel

/-! ## Window words -/

/-- R20 and R166: the view of P1's own holding, HELD with 20 ticks of term. -/
theorem test_viewIndex : let t := after (.viewIndex 1 0 24) shared24
    viewWord (t.port 1).view 2 = 0x90000014 ∧ viewWord (t.port 1).view 1 = 0x1C000020 := by decide +kernel

/-- R150: the supervisor sees both holdings. -/
theorem test_supViewIndex : ((after (.supViewIndex 0 0 24) shared24).supView.map fun v => v.holdings.map Holding.port) = some [1, 2] := by
  decide +kernel

/-- Table 51 step 5: COMMAND acknowledged. -/
theorem test_noticePending : ((after (.noticePending 0 0 0x20) (State.reset.modPort 0 fun r => { r with noticesPending := 0x21 })).port
    0).noticesPending = 0x01 := by decide +kernel

/-- R153: P1 has no flags for P0's own kinds. -/
theorem test_noticeEnable : ((after (.noticeEnable 1 0 0xF5) (board 0)).port 1).noticesEnabled = 0x15 := by decide +kernel

/-- R158: the record is emptied. -/
theorem test_faultClear : ((after (.faultClear 1 0 0) ((board 0).modPort 1 fun r =>
    { r with fault := some ⟨.notHeld, .read 0, true⟩ })).port 1).fault = none := by decide +kernel

/-- R114: bit 0 of the word written. -/
theorem test_tickEnable : (after (.tickEnable 0 0 0xFFFFFFFE) State.reset).tickEnable = false := by decide +kernel

/-- Table 51 step 3: TICK_DIV at port address 1001054h. -/
theorem test_registerWrite : (after (.registerWrite 0 0 0x415 99) State.reset).tickDiv = 99 := by decide +kernel

/-- R136: P1 has no access to the supervisor window, and the fault's place is the port address. -/
theorem test_registerWrite_by_P1 : ((after (.registerWrite 1 0 0x415 99) (board 0)).port 1).fault
    = some ⟨.supervisorOnly, .control 0x1001054, false⟩ := by decide +kernel

/-- R122 and R167: P0 reads PORT_STATES, all four OPEN. -/
theorem test_controlWindowRead : ((after (.controlWindowRead 0 0 0x403) (board 0)).port 0).answer = .done [0x01010101] := by
  decide +kernel

/-! ## Supervision -/

/-- Table 51 step 12: P1 opens and the command completes with OK. -/
theorem test_openPort : let t := after (.openPort 0 0) { State.reset with cmdArg := 0x40000000 }
    (t.port 1).state = .opened ∧ t.result = some ⟨1, .ok⟩ ∧ (t.port 0).noticesPending = 0x20 := by decide +kernel

/-- R125: the engine stays BUSY while the port closes. -/
theorem test_closePort : let t := after (.closePort 0 0) (board 0x80000000)
    (t.port 2).state = .closing .command .second ∧ t.engine = some ⟨2, 0x80000000⟩ := by decide +kernel

/-- Table 55, event 5: the collected holdings are recalled and forced. -/
theorem test_recallLease : let t := after (.recallLease 0 0) shared24
    ((t.entry 24).holdings.map fun h => (h.state, h.grace, h.forced)) = [(.recalled, 8, true), (.recalled, 8, true)] ∧
    (t.port 1).noticesPending = 0x04 := by decide +kernel

/-- R142: REVOKE at both holders, and the entry FREE. -/
theorem test_revokeLease : let t := after (.revokeLease 0 0) shared24
    (t.entry 24).state = .free ∧ (t.port 1).noticesPending = 0x08 ∧ (t.port 2).noticesPending = 0x08 ∧ t.result = some ⟨4, .ok⟩ := by
  decide +kernel

/-- Recovery by adoption, event 6. -/
theorem test_adoptLease : let t := after (.adoptLease 0 0) ((board 0x91030000).setEntry 17 (orphanEntry ⟨6000, 64⟩ ⟨2, 0, false⟩))
    (t.entry 17).holdings = [Holding.award 2 256] ∧ (t.slot 2 0).statusWord 0 = 0x00031002 ∧ (t.port 2).noticesPending = 0x01 ∧
    (t.port 0).noticesPending = 0x20 := by decide +kernel

/-- R146: the orphan's entry drains while a burst is in flight, with the engine BUSY. -/
theorem test_retireLease : let t := after (.retireLease 0 0) ((board 0x11030000).setEntry 17
      { orphanEntry ⟨6000, 64⟩ ⟨2, 0, false⟩ with inFlight := 1 })
    (t.entry 17).state = .draining ∧ t.engine = some ⟨6, 0x11030000⟩ := by decide +kernel

/-- Table 51 step 4. -/
theorem test_setPool : let t := after (.setPool 0 0) { State.reset with cmdArg := 0x00002000 }
    t.poolPages = 8192 ∧ cmdResultWord t.engine.isSome t.result = 0x00000701 := by decide +kernel

/-- R149: the part is reset, P0 OPEN again and P1 CLOSED. -/
theorem test_partReset : let t := after (.partReset 0 0) shared24
    (t.port 0).state = .opened ∧ (t.port 1).state = .closed ∧ (t.entry 24).state = .free ∧ t.result = none := by decide +kernel

/-- R138: an unknown code completes with BAD_VALUE, and can be read back. -/
theorem test_unknownCommand : cmdResultWord false (after (.unknownCommand 0 0 15) State.reset).result = 0x00000F08 := by decide +kernel

/-! ## The close procedure -/

/-- R128: the release in the queue is applied, and the third stage begins. -/
theorem test_closeSecondStage : let t := after (.closeSecondStage 2) (closingAt 2 .second (shared24.modPort 2 fun r =>
      { r with holdQueue := [⟨.release, ⟨24, 2⟩, 0⟩] }))
    (t.entry 24).holdings = [holding 1 .held 20 0] ∧ (t.port 2).state = .closing .command .third := by decide +kernel

/-- R40: the grant of a closing port is given back with no LAPSE notice. -/
theorem test_closeThirdStage : let t := after (.closeThirdStage 1) (closingAt 1 .third (awarded 5 false))
    t.slot 1 0 = .empty ∧ (t.entry 6).state = .free ∧ (t.port 1).noticesPending = 0 := by decide +kernel

/-- Recovery by adoption, event 1: entry 17 becomes ORPHANED with former holder P2, not timed. -/
theorem test_closeFourthStage : let t := after (.closeFourthStage 2) (closingAt 2 .fourth ((board 0).setEntry 17
      (liveEntry .exclusive ⟨6000, 64⟩ [holding 2 .held 40 0])))
    (t.entry 17).orphan = some ⟨2, 0, false⟩ ∧ (t.entry 17).state = .orphaned ∧ (t.port 0).noticesPending = 0x40 := by decide +kernel

/-- R132 and R125: the port is CLOSED and the CLOSE_PORT that waits for it completes with OK. -/
theorem test_closeSixthStage : let t := after (.closeSixthStage 2) { closingAt 2 .fifth (board 0) with engine := some ⟨2, 0x80000000⟩ }
    (t.port 2).state = .closed ∧ t.engine = none ∧ t.result = some ⟨2, .ok⟩ := by decide +kernel

/-! ## Witnesses: states and operands that meet the hypotheses of each obligation, clause by clause -/

theorem witness_EveryCommandAnswersNext :
    (Instr.poolWrite 3 0x3FFFFF 0 (List.replicate 16 0)).wellFormed = true ∧ (Instr.unknownCommand 0 0 9).wellFormed = true ∧
    ¬(1 ≤ (List.replicate 17 (0 : Word)).length ∧ (List.replicate 17 (0 : Word)).length ≤ 16) := by decide

theorem witness_EmptyQueueCountsOneCycle :
    let s := State.reset
    let z := { s with prescaleCounter := 0 }
    s.pending = [] ∧ ¬clockOn { s with tickEnable := false } ∧ (clockOn s ∧ s.prescaleCounter ≠ 0) ∧
    (clockOn z ∧ z.prescaleCounter = 0 ∧ z.tickDue = false ∧ z.tickCounter ≠ 0) ∧
    (clockOn { z with tickCounter := 0 } ∧ ({ z with tickCounter := 0 } : State).tickCounter = 0) ∧
    (clockOn { z with tickDue := true } ∧ ({ z with tickDue := true } : State).tickDue = true) := by decide

theorem witness_LeaseTickInterval :
    let s := State.reset
    s.pending = [] ∧ clockOn s ∧ s.tickDue = false ∧
    40000 = s.tickCounter.toNat * (s.prescaleDiv.toNat + 1) + s.prescaleCounter.toNat + 1 ∧
    s.prescaleCounter = s.prescaleDiv ∧ s.tickCounter = s.tickDiv := by decide

theorem witness_PartResetRestoresEveryPart : commandable State.reset := by decide +kernel

theorem witness_PartResetTearsOneWordAtMost : commandable (writing 1) ∧ commandable (reading 1 0) ∧
    (State.reset.memPort = none) ∧ ((reading 1 0).memPort.map ActiveBurst.kind = some (.read 1)) ∧
    ((writing 1).memPort.map ActiveBurst.kind = some (.write [0x44332211, 0x88776655]) ∧
      ([0x44332211, 0x88776655] : List Word)[1]? = some 0x88776655) := by decide +kernel

theorem witness_ResetLinesActOnPortState : (3 : Port) ≠ 0 := by decide

theorem witness_PrescaleUnderflowPulses :
    let s := State.reset
    ¬clockOn { s with nreset := true } ∧ (clockOn s ∧ s.tickDue = false ∧ s.tickCounter ≠ 0) ∧
    ({ s with tickCounter := 0 } : State).tickCounter = 0 ∧ clockOn { s with tickDue := true } := by decide

theorem witness_LeaseTickCountsDown :
    ¬clockOn { State.reset with tickEnable := false } ∧ clockOn shared24 ∧ settled shared24 ∧
    (clockOn (awarded 1 true) ∧ ¬settled (awarded 1 true)) := by decide +kernel

theorem witness_TermEndMovesHoldingOn : let s := (leased .held 1 0).modEntry 6 fun x => { x with tickDue := true }
    (s.entry 6).tickDue = true ∧ s.tickEnable = true ∧ (s.entry 6).state = .live ∧
    (s.entry 6).holdingState 1 = some .held := by decide +kernel

theorem witness_GraceEndRevokesHolding : let s := (leased .recalled 0 1).modEntry 6 fun x => { x with tickDue := true }
    (s.entry 6).tickDue = true ∧ s.tickEnable = true ∧ (s.entry 6).state = .live ∧ portsRise (s.entry 6).holdings ∧
    (s.entry 6).holdingState 1 = some .recalled := by decide +kernel

theorem witness_LapseGivesGrantBack :
    ((awarded 1 true).slot 1 0 = .granted (claimOf ⟨64, 8⟩ .exclusive) (newGrant 6 1 true) ∧ (awarded 1 true).tickEnable = true) ∧
    ((awarded 2 true).slot 1 0 = .granted (claimOf ⟨64, 8⟩ .exclusive) (newGrant 6 2 true) ∧ (awarded 2 true).tickEnable = true) := by
  decide +kernel

/-- The orphan of the recovery sequence, with a tick waiting at its entry. -/
def dueOrphan (o : OrphanRecord) : State := (board 0).setEntry 17 { orphanEntry ⟨6000, 64⟩ o with tickDue := true }

theorem witness_OrphanExpiryDiscardsRecord :
    ∀ o ∈ [⟨2, 0, false⟩, ⟨2, 2, true⟩, ⟨2, 1, true⟩], let s := dueOrphan o
      (s.entry 17).tickDue = true ∧ s.tickEnable = true ∧ (s.entry 17).state = .orphaned ∧ (s.entry 17).orphan = some o := by
  decide +kernel

theorem witness_EventsNotDueChangeNothing : let s := State.reset
    (s.entry 63).tickDue = false ∧ (s.slot 3 3).tickDue = false ∧ s.evalCalled = false ∧ s.headKind 3 = none ∧ s.memPort = none ∧
    (∀ q, s.offered q = none) ∧ (s.port 3).read = none ∧ s.closeStage 3 = none ∧
    (let c : Instr := .poolRead 1 0x4000 0xF 15
     c.presenter = some 1 ∧ c.wellFormed = true ∧ ¬listens (reading 1 0) 1 ∧ ¬listens { s with nreset := true } 1 ∧
     ¬listens (s.modPort 1 fun r => { r with lineHeld := true }) 1) := by decide +kernel

theorem witness_CoveringEntryIsTheOne : let s := leased .held 9 0
    s.covering 1 64 = some 6 ∧ s.covering 1 71 = some 6 ∧ s.covering 1 72 = none ∧ s.covering 2 64 = none ∧ OwnRangesApart s := by
  decide +kernel

/-- P1's lease of entry 6 in another mode, and P1's port with two writes buffered. -/
def leasedIn (m : Mode) (st : HoldingState) : State := (leased st 9 0).modEntry 6 fun x => { x with mode := m }

def fullBuffer : State := (leased .held 9 0).modPort 1 fun r =>
  { r with writeBuffer := List.replicate 2 { addr := 0x4000, enables := 0xF, words := [0], entry := 6 } }

theorem witness_PoolWriteJudged :
    (listens (State.reset) 1 ∧ (State.reset.port 1).state ≠ .opened) ∧
    (listens fullBuffer 1 ∧ (fullBuffer.port 1).state = .opened ∧ 2 ≤ (fullBuffer.port 1).writeBuffer.length) ∧
    (let s := { leased .held 9 0 with poolPages := 4096 }
     listens s 1 ∧ (s.port 1).state = .opened ∧ (s.port 1).writeBuffer.length < 2 ∧
      s.poolPages.toNat * 1024 ≤ 4 * (0x100000 : BitVec 22).toNat) ∧
    (let s := leased .held 9 0
     4 * (0x4000 : BitVec 22).toNat < s.poolPages.toNat * 1024 ∧ 1024 < 4 * (0x40FF : BitVec 22).toNat % 1024 + 4 * 2 ∧
      4 * (0x40FE : BitVec 22).toNat % 1024 + 4 * 2 ≤ 1024 ∧ s.covering 1 72 = none ∧
      (s.covering 1 64 = some 6 ∧ (s.entry 6).holdingState 1 ≠ some .awarded ∧ (s.entry 6).mode = .exclusive)) ∧
    ((leasedIn .shared .held).covering 1 64 = some 6 ∧ ((leasedIn .shared .held).entry 6).mode = .shared) ∧
    ((leasedIn .shared .awarded).covering 1 64 = some 6 ∧
      ((leasedIn .shared .awarded).entry 6).holdingState 1 = some .awarded) := by decide +kernel

theorem witness_PoolReadJudged :
    (listens (State.reset) 1 ∧ (State.reset.port 1).state ≠ .opened) ∧
    (listens fullBuffer 1 ∧ (fullBuffer.port 1).state = .opened ∧ (fullBuffer.port 1).writeBuffer ≠ []) ∧
    (let s := { leased .held 9 0 with poolPages := 4096 }
     (s.port 1).writeBuffer = [] ∧ s.poolPages.toNat * 1024 ≤ 4 * (0x100000 : BitVec 22).toNat) ∧
    (let s := leased .held 9 0
     listens s 1 ∧ 4 * (0x40FF : BitVec 22).toNat < s.poolPages.toNat * 1024 ∧
      1024 < 4 * (0x40FF : BitVec 22).toNat % 1024 + 4 * ((1 : BitVec 4).toNat + 1) ∧
      4 * (0x40FF : BitVec 22).toNat % 1024 + 4 * ((0 : BitVec 4).toNat + 1) ≤ 1024 ∧ s.covering 1 72 = none ∧
      s.covering 1 64 = some 6 ∧ (s.entry 6).holdingState 1 ≠ some .awarded) ∧
    ((leasedIn .shared .awarded).covering 1 64 = some 6 ∧
      ((leasedIn .shared .awarded).entry 6).holdingState 1 = some .awarded) := by decide +kernel

/-- P1 with a held read at pool word address 4000h, in the first page of its lease. -/
def heldRead (s : State) (a : BitVec 22) (len : BitVec 4) : State :=
  s.modPort 1 fun r => { r with read := some { addr := a, enables := 0xF, len := len, stage := .held } }

theorem witness_HeldReadJudged :
    (let s := heldRead { leased .held 9 0 with poolPages := 64 } 0x4000 0
     (s.port 1).read = some { addr := 0x4000, enables := 0xF, len := 0, stage := .held } ∧ (s.port 1).writeBuffer = [] ∧
      s.poolPages.toNat * 1024 ≤ 4 * (0x4000 : BitVec 22).toNat) ∧
    (let s := heldRead (leased .held 9 0) 0x40F1 15
     (s.port 1).writeBuffer = [] ∧ 1024 < 4 * (0x40F1 : BitVec 22).toNat % 1024 + 4 * ((15 : BitVec 4).toNat + 1)) ∧
    (let s := heldRead (leased .held 9 0) 0x40F0 15
     4 * (0x40F0 : BitVec 22).toNat % 1024 + 4 * ((15 : BitVec 4).toNat + 1) ≤ 1024 ∧ s.covering 1 64 = some 6 ∧
      (s.entry 6).holdingState 1 ≠ some .awarded ∧ s.covering 1 72 = none) ∧
    ((heldRead (leased .awarded 9 0) 0x4000 0).entry 6).holdingState 1 = some .awarded := by decide +kernel

theorem witness_BurstStartRotates :
    ((writing 0).port 1).writeBuffer = [{ addr := 0x4000, enables := 0xF, words := [0x44332211, 0x88776655], entry := 6 }] ∧
    (((reading 1 0).port 1).writeBuffer = [] ∧
      ((reading 1 0).port 1).read = some { addr := 0x4000, enables := 0x3, len := 1, stage := .accepted 6 }) ∧
    ((State.reset.port 0).writeBuffer = [] ∧ ∀ r ∈ (State.reset.port 0).read, r.stage = .held) ∧
    (let s := { writing 0 with memPort := none, pointer := 2 }
     (s.offered (s.pointer + 3)).isSome = true ∧ ∀ j : Port, j < 3 → s.offered (s.pointer + j) = none) := by decide +kernel

theorem witness_WordReadyCarriesOneWord :
    (writing 0).nreset = false ∧ (reading 1 0).nreset = false ∧ State.reset.memPort = none ∧
    ((writing 0).memPort.map fun b => (b.kind, b.done)) = some (.write [0x44332211, 0x88776655], 0) ∧
    ([0x44332211, 0x88776655] : List Word)[0]? = some 0x44332211 ∧ 0 + 1 < ([0x44332211, 0x88776655] : List Word).length ∧
    ((reading 1 0).memPort.map fun b => (b.kind, b.done)) = some (.read 1, 0) ∧ 0 < (1 : BitVec 4).toNat := by decide +kernel

theorem witness_LastWordFinishesBurst :
    ((writing 1).memPort.map fun b => (b.kind, b.done)) = some (.write [0x44332211, 0x88776655], 1) ∧
    ([0x44332211, 0x88776655] : List Word)[1]? = some 0x88776655 ∧ 1 + 1 = ([0x44332211, 0x88776655] : List Word).length ∧
    ((reading 1 1).memPort.map fun b => (b.kind, b.done)) = some (.read 1, 1) ∧ 1 = (1 : BitVec 4).toNat := by decide +kernel

theorem witness_PoolChangesAtMemoryPortAlone : let c : Instr := .poolWrite 1 0x4000 0xF [1]
    exec c (leased .held 9 0) = .next (after c (leased .held 9 0)) ∧ (∀ m, c ≠ .poolWordReady m) ∧ c ≠ .nreset ∧
    (∀ len, c ≠ .partReset 0 len) ∧ (∀ len, c ≠ .unknownCommand 0 len 8) ∧
    ∀ len w, c ≠ .registerWrite 0 len Reg.command.addr w := by
  refine ⟨rfl, ?_, ?_, ?_, ?_, ?_⟩ <;> simp

/-- The claim of P3 waits in the first state, and in the second, with entry 24 FREE, it is granted. -/
theorem witness_EvaluationLeavesNothingGrantable :
    (let s := { waiting24 with evalCalled := true }
     QueueLaw s ∧ s.evalCalled = true ∧ s.waitQueue = [] ++ ⟨3, 0⟩ :: [] ∧
       s.claimAt ⟨3, 0⟩ = some (claimOf ⟨7180, 4⟩ .exclusive) ∧ s.grantable [] 3 (claimOf ⟨7180, 4⟩ .exclusive) = false) ∧
    (let s := { waiting24.setEntry 24 Entry.unused with evalCalled := true }
     QueueLaw s ∧ s.grantable [] 3 (claimOf ⟨7180, 4⟩ .exclusive) = true ∧ (after .evaluation s).waitQueue = []) ∧
    (let a : PageRange := ⟨7168, 32⟩
     let b : PageRange := ⟨7199, 1⟩
     a.count ≠ 0 ∧ b.count ≠ 0 ∧ a.overlaps b = true ∧ a.overlaps ⟨7200, 1⟩ = false) := by decide +kernel

theorem witness_GrantMakesBothHalves :
    (let s := waiting24
     let d := claimOf ⟨7180, 4⟩ .exclusive
     (s.termsOf 3).resolve d.term = (256, false) ∧ s.joinTarget 3 d = none ∧ s.lowestFree = some 0) ∧
    (shared24.joinTarget 3 (claimOf ⟨7168, 32⟩ .shared) = some 24 ∧
      (shared24.termsOf 3).resolve (claimOf ⟨7168, 32⟩ .shared).term = (256, false)) := by decide +kernel

/-- P3 open with this range staged for its slot S0. -/
def staged (s : State) (range : PageRange) : State := s.modPort 3 fun r => { r with staging := r.staging.put 0 range }

theorem witness_ClaimRefusedByThreeChecks :
    (serves waiting24 3 ∧ waiting24.slot 3 0 ≠ .empty) ∧
    (let s := staged (board 0) ⟨16383, 2⟩
     serves s 3 ∧ s.slot 3 0 = .empty ∧ s.poolPages.toNat < 16383 + 2) ∧ ((⟨0, 0⟩ : PageRange).count = 0) ∧
    (let s := staged ((board 0).setEntry 6 (liveEntry .exclusive ⟨64, 8⟩ [holding 3 .held 9 0])) ⟨71, 1⟩
     serves s 3 ∧ s.slot 3 0 = .empty ∧ 71 + 1 ≤ s.poolPages.toNat ∧ ((s.entry 6).holdingOf 3).isSome = true ∧
      (s.entry 6).range.overlaps ⟨71, 1⟩ = true) ∧
    (let s := (board 0).setSlot 3 1 (.waiting (claimOf ⟨10, 2⟩ .shared))
     serves s 3 ∧ s.slot 3 0 = .empty ∧ liveClaim (s.slot 3 1) = some (claimOf ⟨10, 2⟩ .shared) ∧
      (claimOf ⟨10, 2⟩ .shared).range.overlaps ⟨11, 1⟩ = true) := by decide +kernel

theorem witness_ClaimArrivesInOneOfThreeWays :
    (let s := staged (board 0) ⟨16383, 1⟩
     let d := descriptorOf ⟨16383, 1⟩ 0x80000000
     serves s 3 ∧ s.slot 3 0 = .empty ∧ d.range.valid s.poolPages = true ∧ s.overlapsOwn 3 d.range = false ∧
      d = descriptorOf ((s.port 3).staging.look 0) 0x80000000 ∧
      s.walk.grantable (s.walk.claims s.walk.waitQueue) 3 d = true) ∧
    (let s := staged shared24 ⟨7180, 4⟩
     let d := descriptorOf ⟨7180, 4⟩ 0xC0000000
     let d' := descriptorOf ⟨7180, 4⟩ 0x80000000
     serves s 3 ∧ s.slot 3 0 = .empty ∧ d.range.valid s.poolPages = true ∧ s.overlapsOwn 3 d.range = false ∧
      d = descriptorOf ((s.port 3).staging.look 0) 0xC0000000 ∧ d.noWait = true ∧
      d' = descriptorOf ((s.port 3).staging.look 0) 0x80000000 ∧ d'.noWait = false ∧
      s.walk.grantable (s.walk.claims s.walk.waitQueue) 3 d = false ∧
      s.walk.grantable (s.walk.claims s.walk.waitQueue) 3 d' = false) := by decide +kernel

theorem witness_CancelActsBySlotState :
    (serves (board 0) 3 ∧ (board 0).slot 3 3 = .empty) ∧
    (serves waiting24 3 ∧ waiting24.slot 3 0 = .waiting (claimOf ⟨7180, 4⟩ .exclusive)) ∧
    (serves (awarded 5 false) 1 ∧ (awarded 5 false).slot 1 0 = .granted (claimOf ⟨64, 8⟩ .exclusive) (newGrant 6 5 false)) ∧
    (let s := (board 0).setSlot 1 2 (.denied (claimOf ⟨64, 8⟩ .exclusive) .conflict)
     serves s 1 ∧ s.slot 1 2 = .denied (claimOf ⟨64, 8⟩ .exclusive) .conflict) := by decide +kernel

theorem witness_CollectTakesUpGrant :
    (serves (board 0) 3 ∧ (board 0).slot 3 3 = .empty) ∧
    (serves waiting24 3 ∧ waiting24.slot 3 0 = .waiting (claimOf ⟨7180, 4⟩ .exclusive)) ∧
    serves (awarded 5 false) 1 ∧ (awarded 5 false).slot 1 0 = .granted (claimOf ⟨64, 8⟩ .exclusive) (newGrant 6 5 false) := by
  decide +kernel

theorem witness_DenialTakenUp : let s := (board 0).setSlot 1 2 (.denied (claimOf ⟨64, 8⟩ .exclusive) .tableFull)
    serves s 1 ∧ s.slot 1 2 = .denied (claimOf ⟨64, 8⟩ .exclusive) .tableFull := by decide +kernel

/-- P1 with this many releases waiting. -/
def queued (n : Nat) : State := (board 0).modPort 1 fun r => { r with holdQueue := List.replicate n ⟨.release, ⟨6, 2⟩, 0⟩ }

theorem witness_HoldQueuePostsAndCounts :
    (listens (queued 3) 1 ∧ ((queued 3).port 1).state = .opened ∧ ((queued 3).port 1).holdQueue.length < 4) ∧
    (listens (queued 4) 1 ∧ ((queued 4).port 1).state = .opened ∧ ((queued 4).port 1).holdQueue.length = 4) ∧
    (listens State.reset 1 ∧ (State.reset.port 1).state ≠ .opened) := by decide +kernel

/-- P1's queue with one item for its lease of entry 6. -/
def item (kind : ItemKind) (gen : BitVec 8) (st : HoldingState) : State :=
  (leased st 9 0).modPort 1 fun r => { r with holdQueue := [⟨kind, ⟨6, gen⟩, 0⟩] }

theorem witness_ReleaseRemovesHolding :
    (((item .release 1 .held).port 1).holdQueue = [⟨.release, ⟨6, 1⟩, 0⟩] ∧ ((item .release 1 .held).entry 6).generation ≠ 1) ∧
    (((item .release 2 .awarded).entry 6).generation = 2 ∧ ((item .release 2 .awarded).entry 6).holdingState 1 = some .awarded) ∧
    ((item .release 2 .recalled).entry 6).holdingState 1 = some .recalled := by decide +kernel

theorem witness_RenewLoadsTerm :
    (((item .renew 1 .held).port 1).holdQueue = [⟨.renew, ⟨6, 1⟩, 0⟩] ∧ ((item .renew 1 .held).entry 6).generation ≠ 1) ∧
    (((item .renew 2 .overdue).entry 6).generation = 2 ∧ ((item .renew 2 .overdue).entry 6).holdingState 1 = some .overdue) ∧
    ((item .renew 2 .recalled).entry 6).holdingState 1 = some .recalled := by decide +kernel

theorem witness_ViewsTakeSnapshots : entryOf ((0xFFFFFFFF : Word).extractLsb' 0 6) = 63 ∧ serves (board 0) 3 ∧ serves (board 0) 0 := by
  decide +kernel

theorem witness_AcknowledgeClearsNamedFlags :
    (listens (board 0) 0 ∧ ((board 0).port 0).state = .opened) ∧ (listens (board 0) 3 ∧ ((board 0).port 3).state = .opened) ∧
    (listens State.reset 3 ∧ (State.reset.port 3).state ≠ .opened) := by decide +kernel

theorem witness_NoticeEnablesReplaced :
    (listens (board 0) 0 ∧ ((board 0).port 0).state = .opened) ∧ (listens (board 0) 3 ∧ ((board 0).port 3).state = .opened) ∧
    (listens State.reset 3 ∧ (State.reset.port 3).state ≠ .opened) := by decide +kernel

theorem witness_PlainWordsTakeTheirValue : serves (board 0) 3 ∧ serves (board 0) 0 := by decide +kernel

/-- The boundaries of the two windows, and words that permit only a read or only a write. -/
theorem witness_WindowAccessJudged :
    (listens State.reset 1 ∧ (State.reset.port 1).state ≠ .opened) ∧ (listens (board 0) 1 ∧ ((board 0).port 1).state = .opened) ∧
    inSupervisor 0x400 ∧ inSupervisor 0x7FF ∧ ¬inSupervisor 0x3FF ∧ ¬inSupervisor 0x800 ∧ (1 : BitVec 4) ≠ 0 ∧
    rowAt 0x3FF = none ∧ rowAt 0x800 = none ∧ rowAt 0x3FFFFF = none ∧
    rowAt 0 = some ⟨0, .portStatus, true, false⟩ ∧ rowAt 6 = some ⟨0x18, .faultClear, false, true⟩ := by decide +kernel

theorem witness_OwnRowsAreWindowAccesses : rowAt 0x41F = some ⟨0x7C, .termCap 3, true, true⟩ := by decide +kernel

theorem witness_WindowReadsChangeNothing : (((queued 4).port 1).holdQueue.length ≤ 4) ∧ waiting24.waitQueue = [] ++ ⟨3, 0⟩ :: [] ∧ serves (board 0) 3 ∧ serves (board 0) 0 ∧
    rowAt 0x41F = some ⟨0x7C, .termCap 3, true, true⟩ ∧ ∀ k, Reg.termCap 3 ≠ .slotCollect k := by decide +kernel

theorem witness_WordsCarryTheirFields :
    let i : EntryItems := { index := 63, state := .live, generation := 255, mode := .shared, range := ⟨0, 1⟩, nHoldings := 4,
                            inFlight := 8, contested := true }
    (15 : Nat) ≤ 15 ∧ i.nHoldings ≤ 4 ∧ i.inFlight ≤ 8 := by decide

theorem witness_BusyEngineRefusesCommands : let s := { board 0 with engine := some ⟨4, 0⟩ }
    serves s 0 ∧ s.engine ≠ none := by decide +kernel

theorem witness_FailingCommandsLeaveResult :
    (commandable (board 0) ∧ argPort (board 0).cmdArg = 0) ∧
    (let s := board 0x40000000
     argPort s.cmdArg = 1 ∧ (s.port 1).state ≠ .closed) ∧
    (argPort (0x40000000 : Word) = 1 ∧ (State.reset.port 1).state ≠ .opened) ∧
    (let s := { shared24 with cmdArg := 0x18010000 }
     (handleOf s.cmdArg).entry = 24 ∧ (s.entry 24).generation ≠ (handleOf s.cmdArg).generation) ∧
    (let s := { State.reset with cmdArg := 0x3F000000 }
     commandable s ∧ (s.entry (handleOf s.cmdArg).entry).generation = (handleOf s.cmdArg).generation ∧
      (s.entry (handleOf s.cmdArg).entry).state ≠ .live ∧ (s.entry (handleOf s.cmdArg).entry).state ≠ .orphaned) ∧
    (let s := (board 0x91030000).setEntry 17 (orphanEntry ⟨6000, 64⟩ ⟨2, 0, false⟩)
     commandable s ∧ (s.entry 17).generation = (handleOf s.cmdArg).generation ∧ (s.entry 17).state = .orphaned ∧
      (s.entry 17).inFlight = 0 ∧ (s.port 2).state = .opened ∧ s.slot 2 3 = .empty ∧
      (s.setEntry 5 (liveEntry .shared ⟨6063, 1⟩ [holding 2 .held 9 0])).overlapsOwn 2 (s.entry 17).range = true ∧
      (allSlots.foldl (fun s k => s.setSlot 2 k (.denied (claimOf ⟨0, 1⟩ .shared) .conflict)) s).lowestEmpty 2 = none) ∧
    (argValue 0 = 0 ∧ 16384 < argValue 0x4001 ∧ argValue 0x4000 ≠ 0 ∧ argValue 0x4000 ≤ 16384 ∧ (shared24.entry 24).state ≠ .free) ∧
    ((0 : BitVec 4) = 0 ∧ 8 < (9 : BitVec 4)) := by decide +kernel

theorem witness_PortAndPoolCommandsAct :
    (let s := { State.reset with cmdArg := 0x40000000 }
     commandable s ∧ argPort s.cmdArg = 1 ∧ (s.port 1).state = .closed ∧ (s.port 1).lineHeld = false) ∧
    (let s := board 0xC0000000
     commandable s ∧ argPort s.cmdArg = 3 ∧ (s.port 3).state = .opened) ∧
    (let s := { State.reset with cmdArg := 0x4000 }
     commandable s ∧ argValue s.cmdArg ≠ 0 ∧ argValue s.cmdArg ≤ 16384 ∧ (∀ e, (s.entry e).state = .free) ∧
      ∀ p k, s.slot p k = .empty) := by decide +kernel

theorem witness_RecallForcesEveryCollectedHolding : commandable shared24 ∧ handleOf shared24.cmdArg = ⟨24, 2⟩ ∧
    (shared24.entry 24).generation = 2 ∧ (shared24.entry 24).state = .live := by decide +kernel

theorem witness_RevokeEndsTheLease : let s := { awarded 5 false with cmdArg := 0x06020000 }
    commandable s ∧ handleOf s.cmdArg = ⟨6, 2⟩ ∧ (s.entry 6).generation = 2 ∧ (s.entry 6).state = .live := by decide +kernel

theorem witness_AdoptGrantsTheOrphan : let s := (board 0x91030000).setEntry 17 (orphanEntry ⟨6000, 64⟩ ⟨2, 0, false⟩)
    commandable s ∧ handleOf s.cmdArg = ⟨17, 3⟩ ∧ argPort s.cmdArg = 2 ∧ (s.entry 17).generation = 3 ∧
    (s.entry 17).state = .orphaned ∧ (s.entry 17).inFlight = 0 ∧ (s.port 2).state = .opened ∧ s.slot 2 0 = .empty ∧
    (∀ k' : SlotNo, k' < 0 → s.slot 2 k' ≠ .empty) ∧ s.overlapsOwn 2 (s.entry 17).range = false ∧
    (s.termsOf 2).resolve 0 = (256, false) := by decide +kernel

theorem witness_RetireDiscardsTheOrphan : let s := (board 0x11030000).setEntry 17 (orphanEntry ⟨6000, 64⟩ ⟨2, 0, false⟩)
    commandable s ∧ handleOf s.cmdArg = ⟨17, 3⟩ ∧ (s.entry 17).generation = 3 ∧ (s.entry 17).state = .orphaned := by decide +kernel

theorem witness_OnlySupervisorConfigures : let c : Instr := .registerWrite 1 0 (Reg.slotDescA 0).addr 0x00640004
    c.presenter = some 1 ∧ (1 : Port) ≠ 0 ∧ exec c (board 0) = .next (after c (board 0)) := by
  exact ⟨rfl, by decide, rfl⟩

/-- The exception of the last clause: P1's cancel frees the entry that a REVOKE_LEASE waits for. -/
theorem witness_OnlySupervisorConfigures_completes : let s := { awarded 5 false with engine := some ⟨4, 0x06020000⟩ }
    let t := after (.slotCancel 1 0 0 0) s
    awaits s 6 = true ∧ (t.entry 6).state = .free ∧ t.engine = none ∧ t.result = some ⟨4, .ok⟩ := by decide +kernel

theorem witness_SecondStageAppliesQueue :
    (let s := closingAt 2 .second (board 0)
     (s.port 2).state = .closing .command .second ∧ (s.port 2).holdQueue = []) ∧
    (let s := closingAt 1 .second (queued 4)
     (s.port 1).state = .closing .command .second ∧ (s.port 1).holdQueue.head? = some ⟨.release, ⟨6, 2⟩, 0⟩) := by decide +kernel

/-- The third stage finds slots of every kind. -/
theorem witness_ThirdStageEmptiesSlots_slots :
    (let s := closingAt 2 .third (board 0)
     (s.port 2).state = .closing .command .third ∧ ∀ k, s.slot 2 k = .empty) ∧
    (closingAt 3 .third waiting24).slot 3 0 = .waiting (claimOf ⟨7180, 4⟩ .exclusive) ∧
    (closingAt 1 .third (awarded 5 false)).slot 1 0 = .granted (claimOf ⟨64, 8⟩ .exclusive) (newGrant 6 5 false) ∧
    (let s := closingAt 1 .third ((board 0).setSlot 1 3 (.denied (claimOf ⟨64, 8⟩ .exclusive) .tableFull))
     s.slot 1 3 = .denied (claimOf ⟨64, 8⟩ .exclusive) .tableFull ∧ ∀ j : SlotNo, j < 3 → s.slot 1 j = .empty) := by decide +kernel

/-- The third stage of P1's close, with a grant in its slot S0. -/
theorem witness_ThirdStageEmptiesSlots : let s := closingAt 1 .third (awarded 5 false)
    (s.port 1).state = .closing .command .third ∧ QueueLaw s ∧ LeaseLaw s ∧ FlightLaw s := by
  refine ⟨by decide +kernel, by decide +kernel, ⟨?_, ?_, ?_, ?_, ?_, ?_⟩, ?_, ?_, ?_⟩ <;> decide +kernel

theorem witness_FourthStageRemovesOrOrphans : let s := closingAt 2 .fourth ((board 0).setEntry 17
      (liveEntry .exclusive ⟨6000, 64⟩ [holding 2 .held 40 0]))
    (s.port 2).state = .closing .command .fourth ∧ ∀ e, EntryShape (s.entry e) := by
  refine ⟨by decide +kernel, ?_⟩; decide +kernel

theorem witness_SixthStageClosesPort : let s := { closingAt 2 .fifth (board 0) with engine := some ⟨2, 0x80000000⟩ }
    (s.port 2).state = .closing .command .fifth ∧ (s.port 2).writeBuffer = [] ∧ (s.port 2).read = none ∧
    closeAwaited s 2 = true ∧ closeAwaited (closingAt 0 .fifth (board 0)) 0 = false := by decide +kernel

/-- A state with a lease, a claim that waits for it, a grant and a burst in flight, in which every law holds, and a command
that steps from it. -/
def lawful : State :=
  let s := (awarded 5 false).setEntry 24 { liveEntry .shared ⟨7168, 32⟩ [holding 2 .held 20 0] with inFlight := 1, contested := true }
  let t := (s.modPort 2 fun r => { r with read := some { addr := 0x1C0200, enables := 0xF, len := 15, stage := .accepted 24 } }).setSlot
    3 0 (.waiting (claimOf ⟨7180, 4⟩ .exclusive))
  { t with waitQueue := [⟨3, 0⟩], pending := [.slotCollect 1 0 0] }

theorem witness_BoundsKeptByEveryStep : RoomLaw lawful ∧ PoolForm lawful ∧ CountersLaw lawful ∧
    step lawful = .next (after (.slotCollect 1 0 0) { lawful with pending := [] }) := by
  refine ⟨?_, ?_, ?_, rfl⟩ <;> decide +kernel

theorem witness_QueueLawKeptByEveryStep : QueueLaw lawful := by decide +kernel

theorem witness_FlightLawKeptByEveryStep : FlightLaw lawful := by
  refine ⟨?_, ?_, ?_⟩ <;> decide +kernel

theorem witness_LeaseLawKeptByEveryStep : LeaseLaw lawful := by
  refine ⟨?_, ?_, ?_, ?_, ?_, ?_⟩ <;> decide +kernel

theorem witness_RangesKeptApartByEveryStep : NoConflict lawful ∧ OwnRangesApart lawful := by
  refine ⟨?_, ?_⟩ <;> decide +kernel

theorem witness_ContestLawKeptByEveryStep : ContestLaw lawful := by decide +kernel

end Sys2Proof.Tests
end

section
/-! SUPPORT. Holdings and entries: what is found of a port in a list of holdings, and what becomes of the shape of an entry. -/

namespace Sys2Proof.Machine

/-! ## Holdings of a port -/

theorem Entry.holdingState_isSome (x : Entry) (p : Port) : (x.holdingState p).isSome = (x.holdingOf p).isSome := by
  simp [Entry.holdingState]

theorem Entry.holdingState_eq_none {x : Entry} {p : Port} : x.holdingState p = none ↔ x.holdingOf p = none := by
  simp [Entry.holdingState]

theorem Entry.holdingOf_eq_none {x : Entry} {p : Port} : x.holdingOf p = none ↔ p ∉ x.holdings.map Holding.port := by
  simp [Entry.holdingOf]

/-- While the ports rise, the record found of a port is the one that stands there. -/
theorem Entry.holdingOf_eq_some {x : Entry} {p : Port} {h : Holding} (hr : portsRise x.holdings) :
    x.holdingOf p = some h ↔ h ∈ x.holdings ∧ h.port = p := by
  unfold Entry.holdingOf
  constructor
  · exact fun hf => ⟨List.mem_of_find?_eq_some hf, by simpa using List.find?_some hf⟩
  · rintro ⟨hm, rfl⟩
    cases hf : x.holdings.find? (fun g => g.port == h.port) with
    | none => simpa using List.find?_eq_none.1 hf h hm
    | some g =>
      have hg : g.port = h.port := by simpa using List.find?_some hf
      rw [List.inj_on_of_nodup_map (hr.imp (fun hlt => ne_of_lt hlt)) (List.mem_of_find?_eq_some hf) hm hg]

theorem Entry.holdingState_eq_some {x : Entry} {p : Port} {st : HoldingState} (hr : portsRise x.holdings) :
    x.holdingState p = some st ↔ ∃ h ∈ x.holdings, h.port = p ∧ h.state = st := by
  simp only [Entry.holdingState, Option.map_eq_some_iff, Entry.holdingOf_eq_some hr, and_assoc]

/-- Records changed in place, each keeping its port, are found changed. -/
theorem Entry.holdingOf_map {x y : Entry} (f : Holding → Holding) (hp : ∀ h, (f h).port = h.port)
    (hy : y.holdings = x.holdings.map f) (p : Port) : y.holdingOf p = (x.holdingOf p).map f := by
  simp [Entry.holdingOf, hy, List.find?_map, hp]

/-- With the port's own record taken out, the other ports' are found as before. -/
theorem Entry.holdingOf_heldByOthers {x y : Entry} {p : Port} (hy : y.holdings = heldByOthers x p) (q : Port) :
    y.holdingOf q = if q = p then none else x.holdingOf q := by
  unfold Entry.holdingOf heldByOthers at *
  rw [hy]
  split_ifs with h
  · subst h; simp
  · rw [List.find?_filter]
    congr 1
    funext g
    by_cases hg : g.port = q
    · subst hg; simp [h]
    · simp [hg]

theorem find_insertHolding (h : Holding) (hs : List Holding) (q : Port) (hn : ∀ g ∈ hs, g.port ≠ h.port) :
    (insertHolding h hs).find? (fun g => g.port == q) = if q = h.port then some h else hs.find? (fun g => g.port == q) := by
  induction hs with
  | nil => by_cases hq : q = h.port <;> simp [insertHolding, hq, Ne.symm]
  | cons g rest ih =>
    have hrest := ih fun f hf => hn f (by simp [hf])
    have hg := hn g (by simp)
    unfold insertHolding
    split_ifs with hlt hq hq
    · subst hq; simp
    · simp [List.find?_cons, Ne.symm hq]
    · subst hq; simpa [List.find?_cons, hg] using hrest
    · simp only [List.find?_cons, hrest]
      simp [hq]

/-- A record put into an entry that has none of its port is found there, and every other as before. -/
theorem Entry.holdingOf_insertHolding {x y : Entry} {h : Holding} (hy : y.holdings = insertHolding h x.holdings)
    (hn : x.holdingOf h.port = none) (q : Port) : y.holdingOf q = if q = h.port then some h else x.holdingOf q := by
  unfold Entry.holdingOf at *
  rw [hy]
  exact find_insertHolding h x.holdings q (by simpa using hn)

theorem insertHolding_ports (h : Holding) (hs : List Holding) :
    ∀ p, p ∈ (insertHolding h hs).map Holding.port ↔ p = h.port ∨ p ∈ hs.map Holding.port := by
  intro p
  induction hs with
  | nil => simp [insertHolding]
  | cons g rest ih =>
    unfold insertHolding
    split_ifs
    · simp
    · rw [List.map_cons, List.mem_cons, ih, List.map_cons, List.mem_cons]; tauto

/-- A record put into its place keeps the ports rising. -/
theorem insertHolding_rise {h : Holding} {hs : List Holding} (hr : portsRise hs) (hn : h.port ∉ hs.map Holding.port) :
    portsRise (insertHolding h hs) := by
  induction hs with
  | nil => simp [insertHolding, portsRise]
  | cons g rest ih =>
    obtain ⟨hg, hrest⟩ := List.pairwise_cons.1 hr
    simp only [List.map_cons, List.mem_cons, not_or] at hn
    unfold insertHolding
    split_ifs with hlt
    · refine List.pairwise_cons.2 ⟨fun q hq => ?_, hr⟩
      rcases List.mem_cons.1 hq with rfl | hq
      · exact hlt
      · exact hlt.trans (hg q hq)
    · refine List.pairwise_cons.2 ⟨fun q hq => ?_, ih hrest hn.2⟩
      rcases (insertHolding_ports h rest q).1 hq with rfl | hq
      · exact lt_of_le_of_ne (not_lt.1 hlt) (Ne.symm hn.1)
      · exact hg q hq

@[simp] theorem insertHolding_ne_nil (h : Holding) (hs : List Holding) : insertHolding h hs ≠ [] := by
  cases hs with
  | nil => simp [insertHolding]
  | cons g rest => unfold insertHolding; split_ifs <;> simp

/-- What a tick leaves of some holdings are holdings of the same ports, AWARDED exactly where they were. -/
theorem Holding.tick_some {c : Bool} {g : BitVec 8} {h h' : Holding} (ht : h.tick c g = some h') :
    h'.port = h.port ∧ (h'.state = .awarded ↔ h.state = .awarded) := by
  obtain ⟨p, st, term, granted, grace, forced⟩ := h
  cases st
  · simp only [Holding.tick, Option.some.injEq] at ht; subst ht; simp
  · simp only [Holding.tick] at ht
    split_ifs at ht <;> cases ht <;> simp [Holding.recall, Holding.overdue]
  · simp only [Holding.tick, Option.some.injEq] at ht; subst ht; simp
  · simp only [Holding.tick] at ht
    split_ifs at ht; cases ht; simp

/-- An AWARDED holding is left alone by a tick (R72). -/
theorem Holding.tick_awarded {h : Holding} (c : Bool) (g : BitVec 8) (ha : h.state = .awarded) : h.tick c g = some h := by
  simp [Holding.tick, ha]

/-- The ports of what a list of holdings becomes stand in the old order. -/
theorem filterMap_ports_sublist {f : Holding → Option Holding} (hf : ∀ h h', f h = some h' → h'.port = h.port)
    (hs : List Holding) : ((hs.filterMap f).map Holding.port).Sublist (hs.map Holding.port) := by
  induction hs with
  | nil => simp
  | cons h hs ih =>
    cases he : f h with
    | none => simpa [List.filterMap_cons, he] using ih.cons h.port
    | some h' => simpa [List.filterMap_cons, he, hf h h' he] using ih

/-! ## The shape of an entry (R5, R11, R12, R18, R19) -/

/-- What an entry is when its last holder or its orphan record is gone (R17, R18). -/
def leftEntry (x : Entry) : Entry :=
  if x.inFlight = 0 then { Entry.unused with generation := x.generation } else drainingEntry x

theorem entryShape_unused (g : BitVec 8) : EntryShape { Entry.unused with generation := g } := by
  simp [EntryShape, Entry.unused, portsRise]

theorem entryShape_drainingEntry {x : Entry} (hf : x.inFlight ≠ 0) : EntryShape (drainingEntry x) := by
  simp [EntryShape, drainingEntry, portsRise, hf]

theorem entryShape_leftEntry (x : Entry) : EntryShape (leftEntry x) := by
  unfold leftEntry
  split_ifs with hf
  · exact entryShape_unused _
  · exact entryShape_drainingEntry hf

theorem entryShape_orphanedEntry (x : Entry) (p : Port) (t : BitVec 16) : EntryShape (orphanedEntry x p t) := by
  simp [EntryShape, orphanedEntry, portsRise]

/-- A LIVE entry with some holdings has its shape. -/
theorem entryShape_of_live {x : Entry} (hs : x.state = .live) (hn : x.holdings ≠ []) (hr : portsRise x.holdings)
    (hx : x.mode = .exclusive → x.holdings.length ≤ 1) : EntryShape x := by
  simp [EntryShape, hs, hn, hr]
  exact hx

theorem entryShape_rise {x : Entry} (h : EntryShape x) : portsRise x.holdings := by
  obtain ⟨-, -, -, hrise, -⟩ := h
  exact hrise

theorem entryShape_exclusive {x : Entry} (h : EntryShape x) (hm : x.mode = .exclusive) : x.holdings.length ≤ 1 := by
  obtain ⟨-, -, hone, -⟩ := h
  exact hone hm

theorem entryShape_holdings_of_state {x : Entry} (h : EntryShape x) (hs : x.state ≠ .live) : x.holdings = [] := by
  obtain ⟨-, hlive, -⟩ := h
  by_contra hn
  exact hs (hlive.2 hn)

theorem entryShape_holdingOf_of_state {x : Entry} (h : EntryShape x) (hs : x.state ≠ .live) (p : Port) :
    x.holdingOf p = none := by
  simp [Entry.holdingOf, entryShape_holdings_of_state h hs]

theorem entryShape_live_of_holdingState {x : Entry} {p : Port} {st : HoldingState} (h : EntryShape x)
    (hs : x.holdingState p = some st) : x.state = .live := by
  by_contra hn
  simp [Entry.holdingState, entryShape_holdingOf_of_state h hn p] at hs

/-- The one holder of an EXCLUSIVE entry. -/
theorem entryShape_holdings_of_exclusive {x : Entry} {p : Port} (h : EntryShape x) (hm : x.mode = .exclusive)
    (hp : x.holdingOf p ≠ none) : ∃ g, x.holdings = [g] ∧ g.port = p := by
  obtain ⟨-, -, hl, -⟩ := h
  have hl := hl hm
  match hh : x.holdings, hl with
  | [], _ => simp [Entry.holdingOf, hh] at hp
  | [g], _ =>
    refine ⟨g, rfl, ?_⟩
    by_contra hg
    simp [Entry.holdingOf, hh, hg] at hp

/-- Two entries with the same record but for terms, counters and contest: the holdings of the same ports, AWARDED in the
same places. -/
structure EntryAlike (x y : Entry) : Prop where
  state : y.state = x.state
  generation : y.generation = x.generation
  mode : y.mode = x.mode
  range : y.range = x.range
  inFlight : y.inFlight = x.inFlight
  orphan : y.orphan.isSome = x.orphan.isSome
  cores : y.holdings.map (fun h => (h.port, h.state == .awarded)) = x.holdings.map (fun h => (h.port, h.state == .awarded))
  free : x.state = .free → y = x

theorem EntryAlike.refl (x : Entry) : EntryAlike x x := ⟨rfl, rfl, rfl, rfl, rfl, rfl, rfl, fun _ => rfl⟩

theorem EntryAlike.ports {x y : Entry} (h : EntryAlike x y) : y.holdings.map Holding.port = x.holdings.map Holding.port := by
  simpa [Function.comp_def] using congrArg (List.map Prod.fst) h.cores

theorem EntryAlike.holdingOf_eq_none {x y : Entry} (h : EntryAlike x y) (p : Port) :
    y.holdingOf p = none ↔ x.holdingOf p = none := by
  rw [Entry.holdingOf_eq_none, Entry.holdingOf_eq_none, h.ports]

theorem EntryAlike.holdingOf_isSome {x y : Entry} (h : EntryAlike x y) (p : Port) :
    (y.holdingOf p).isSome = (x.holdingOf p).isSome := by
  rw [Bool.eq_iff_iff, ← Option.ne_none_iff_isSome, ← Option.ne_none_iff_isSome, ne_eq, ne_eq, h.holdingOf_eq_none p]

theorem EntryAlike.length {x y : Entry} (h : EntryAlike x y) : y.holdings.length = x.holdings.length := by
  simpa using congrArg List.length h.ports

theorem EntryAlike.holdings_eq_nil {x y : Entry} (h : EntryAlike x y) : y.holdings = [] ↔ x.holdings = [] := by
  rw [← List.length_eq_zero_iff, h.length, List.length_eq_zero_iff]

theorem EntryAlike.shape {x y : Entry} (h : EntryAlike x y) (hx : EntryShape x) : EntryShape y := by
  obtain ⟨hfree, hlive, hexcl, hrise, hdrain, horph⟩ := hx
  refine ⟨fun hs => ?_, ?_, ?_, ?_, ?_, ?_⟩
  · rw [h.state] at hs
    rw [h.free hs]
    exact hfree hs
  · rw [h.state, hlive, ne_eq, ne_eq, h.holdings_eq_nil]
  · rw [h.mode, h.length]; exact hexcl
  · unfold portsRise; rw [h.ports]; exact hrise
  · rw [h.state, h.inFlight]
    refine fun hs => ⟨(hdrain hs).1, ?_⟩
    have ho := h.orphan
    rw [(hdrain hs).2] at ho
    simpa using ho
  · rw [h.state, h.orphan]; exact horph

/-- Whether a port's holding is AWARDED is read from the same pairs in both. -/
theorem EntryAlike.awarded {x y : Entry} (h : EntryAlike x y) (p : Port) :
    y.holdingState p = some .awarded ↔ x.holdingState p = some .awarded := by
  have key : ∀ z : Entry, z.holdingState p = some .awarded ↔
      (z.holdings.map fun h => (h.port, h.state == .awarded)).find? (fun c => c.1 == p) = some (p, true) := by
    intro z
    unfold Entry.holdingState Entry.holdingOf
    rw [List.find?_map, Option.map_eq_some_iff, Option.map_eq_some_iff]
    refine exists_congr fun g => ?_
    constructor
    · rintro ⟨hf, hs⟩
      have hp : g.port = p := by simpa using List.find?_some hf
      exact ⟨hf, by simp [hs, hp]⟩
    · rintro ⟨hf, hc⟩
      exact ⟨hf, by simpa using congrArg Prod.snd hc⟩
  rw [key, key, h.cores]

theorem EntryAlike.countsAs {x y : Entry} (h : EntryAlike x y) : y.countsAs = x.countsAs := by
  simp [Entry.countsAs, h.state, h.mode]

theorem EntryAlike.conflicts {x y : Entry} (h : EntryAlike x y) (d : Descriptor) : y.conflicts d = x.conflicts d := by
  simp [Entry.conflicts, h.countsAs, h.range, h.state]

/-- Records changed in place, each keeping its port and being AWARDED or not, leave an entry alike. -/
theorem entryAlike_of_map {x y : Entry} (f : Holding → Holding)
    (hf : ∀ h ∈ x.holdings, (f h).port = h.port ∧ ((f h).state = .awarded ↔ h.state = .awarded))
    (hy : y.holdings = x.holdings.map f) (hs : y.state = x.state) (hg : y.generation = x.generation)
    (hm : y.mode = x.mode) (hr : y.range = x.range) (hi : y.inFlight = x.inFlight) (ho : y.orphan.isSome = x.orphan.isSome)
    (hx : x.state = .free → y = x) : EntryAlike x y where
  state := hs
  generation := hg
  mode := hm
  range := hr
  inFlight := hi
  orphan := ho
  free := hx
  cores := by
    rw [hy, List.map_map]
    refine List.map_congr_left fun h hm => ?_
    simp only [Function.comp_apply, Prod.mk.injEq]
    exact ⟨(hf h hm).1, by rw [Bool.eq_iff_iff]; simpa using (hf h hm).2⟩

/-- A contest reported at an entry in use leaves it alike (R78). -/
theorem entryAlike_contestedEntry {x : Entry} (g : BitVec 8) (hs : x.state ≠ .free) : EntryAlike x (contestedEntry g x) := by
  refine entryAlike_of_map (fun h => if x.state = .live ∧ h.state = .overdue then
      { h with state := .recalled, term := 0, grace := g, forced := false } else h) (fun h _ => ?_) ?_ rfl rfl rfl rfl rfl rfl
      (fun hf => absurd hf hs)
  · split_ifs with hc
    · simp [hc.2]
    · simp
  · unfold contestedEntry; by_cases hl : x.state = .live <;> simp [hl]

/-- The end of a contest leaves an entry in use alike (R79). -/
theorem entryAlike_uncontestedEntry {x : Entry} (hs : x.state ≠ .free) : EntryAlike x (uncontestedEntry x) := by
  refine entryAlike_of_map (fun h => if x.state = .live ∧ h.state = .recalled ∧ h.forced = false then
      { h with state := .overdue, term := 0, grace := 0, forced := false } else h) (fun h _ => ?_) ?_ rfl rfl rfl rfl rfl rfl
      (fun hf => absurd hf hs)
  · split_ifs with hc
    · simp [hc.2.1]
    · simp
  · unfold uncontestedEntry; by_cases hl : x.state = .live <;> simp [hl]

end Sys2Proof.Machine
end

section
/-! SUPPORT. The laws of the tables, and the few ways in which an event changes the tables. Every command is a sequence of such
changes (below), so each law is proved once for each way of changing. -/

namespace Sys2Proof.Machine

/-! ## The laws in two parts: the tables, and each port by itself -/

/-- A port in this state has no slot in use (R40, R128, R133). -/
def PortState.vacant : PortState → Bool
  | .closed => true
  | .opened => false
  | .closing _ st => st == .fourth || st == .fifth

/-- A port in this state has no holding (R129, R133). -/
def PortState.gone : PortState → Bool
  | .closed => true
  | .opened => false
  | .closing _ st => st == .fifth

/-- A port in this state has an empty holding queue (R128, R133). -/
def PortState.applied : PortState → Bool
  | .closed => true
  | .opened => false
  | .closing _ st => st == .third || st == .fourth || st == .fifth

/-- What the lease table and the claim table keep between them: `LeaseLaw` but for what a port's own record keeps. -/
structure TableLaw (s : State) : Prop where
  shape : ∀ e, EntryShape (s.entry e)
  named : ∀ e, (s.entry e).state ≠ .free → (s.entry e).generation ≠ 0
  exclusive : ∀ e, (s.entry e).state = .orphaned → (s.entry e).mode = .exclusive
  vacant : ∀ p, (s.port p).state.vacant = true → ∀ k, s.slot p k = .empty
  gone : ∀ p, (s.port p).state.gone = true → ∀ e, (s.entry e).holdingOf p = none
  grants : GrantHasHolding s
  holdings : HoldingHasGrant s

/-- What a port's own record keeps (R128, R133). -/
structure PortForm (r : PortRec) : Prop where
  applied : r.state.applied = true → r.holdQueue = []
  closed : r.state = .closed → r.writeBuffer = [] ∧ r.read = none ∧ r.noticesPending = 0 ∧ r.noticesEnabled = 0 ∧
    r.fault = none ∧ r.view = none

theorem leaseLaw_iff {s : State} : LeaseLaw s ↔ TableLaw s ∧ ∀ p, PortForm (s.port p) := by
  constructor
  · rintro ⟨hshape, hnamed, hexcl, hport, hgrants, hholdings⟩
    refine ⟨⟨hshape, hnamed, hexcl, fun p hp => ?_, fun p hp => ?_, hgrants, hholdings⟩, fun p => ⟨fun hp => ?_, fun hc => ?_⟩⟩
    · obtain ⟨⟨-, hfourth, -⟩, hclosed⟩ := hport p
      cases hst : (s.port p).state with
      | closed =>
        obtain ⟨hslots, -⟩ := hclosed hst
        exact hslots
      | opened => simp [hst, PortState.vacant] at hp
      | closing c st => exact hfourth (by simpa [State.closeStage, hst, PortState.vacant] using hp)
    · obtain ⟨⟨-, -, hfifth⟩, hclosed⟩ := hport p
      cases hst : (s.port p).state with
      | closed =>
        obtain ⟨-, hnone, -⟩ := hclosed hst
        exact hnone
      | opened => simp [hst, PortState.gone] at hp
      | closing c st => exact hfifth (by simpa [State.closeStage, hst, PortState.gone] using hp)
    · obtain ⟨⟨hthird, -, -⟩, hclosed⟩ := hport p
      cases hst : (s.port p).state with
      | closed =>
        obtain ⟨-, -, hqueue, -⟩ := hclosed hst
        exact hqueue
      | opened => simp [hst, PortState.applied] at hp
      | closing c st => exact hthird (by simpa [State.closeStage, hst, PortState.applied, or_assoc] using hp)
    · obtain ⟨-, -, -, hrest⟩ := (hport p).2 hc
      exact hrest
  · rintro ⟨⟨hshape, hnamed, hexcl, hvacant, hgone, hgrants, hholdings⟩, hform⟩
    refine ⟨hshape, hnamed, hexcl, fun p => ⟨⟨fun h => ?_, fun h => ?_, fun h => ?_⟩, fun hc => ?_⟩, hgrants, hholdings⟩
    · refine (hform p).applied ?_
      cases hst : (s.port p).state <;> simp_all [State.closeStage, PortState.applied, or_assoc]
    · refine hvacant p ?_
      cases hst : (s.port p).state <;> simp_all [State.closeStage, PortState.vacant]
    · refine hgone p ?_
      cases hst : (s.port p).state <;> simp_all [State.closeStage, PortState.gone]
    · exact ⟨hvacant p (by simp [hc, PortState.vacant]), hgone p (by simp [hc, PortState.gone]),
        (hform p).applied (by simp [hc, PortState.applied]), (hform p).closed hc⟩

/-! ## The ways in which an event changes the tables -/

/-- What the laws read of a grant. -/
def grantCore (x : Slot) : Option (PageRange × Handle × GrantKind) :=
  (grantIn x).map fun g => (g.1.range, g.2.handle, g.2.kind)

/-- The tables stay as they are, but for what the laws of the lease table do not read. -/
structure TablesAlike (s t : State) : Prop where
  entry : ∀ e, EntryAlike (s.entry e) (t.entry e)
  grant : ∀ p k, grantCore (t.slot p k) = grantCore (s.slot p k)
  vacant : ∀ p, (t.port p).state.vacant = true →
    ((s.port p).state.vacant = true ∧ ∀ k, s.slot p k = .empty → t.slot p k = .empty) ∨ ∀ k, t.slot p k = .empty
  gone : ∀ p, (t.port p).state.gone = true → (s.port p).state.gone = true ∨ ∀ e, (s.entry e).holdingOf p = none

/-- The entries, the claims and the queue stay as they are. -/
structure Recorded (s t : State) : Prop extends TablesAlike s t where
  same : ∀ e, t.entry e = s.entry e
  claim : ∀ c, t.claimAt c = s.claimAt c
  queue : t.waitQueue = s.waitQueue

/-- One entry loses holders, its record or its use, and no more: an event at one entry that grants nothing. Slots are emptied
only where their grants named the entry. -/
structure Wanes (s t : State) (e : EntryId) : Prop where
  others : othersKept s t e
  queue : t.waitQueue = s.waitQueue
  states : ∀ q, (t.port q).state = (s.port q).state
  slots : ∀ q k, t.slot q k = s.slot q k ∨ (grantNames (s.slot q k) e = true ∧ t.slot q k = .empty)
  shape : EntryShape (t.entry e)
  still : (t.entry e).state ≠ .free → (s.entry e).state ≠ .free ∧ (t.entry e).generation = (s.entry e).generation ∧
    (t.entry e).mode = (s.entry e).mode ∧ (t.entry e).range = (s.entry e).range ∧
    (t.entry e).contested = (s.entry e).contested ∧ (t.entry e).countsAs = (s.entry e).countsAs
  holders : ∀ q, (s.entry e).holdingOf q = none → (t.entry e).holdingOf q = none
  awarded : ∀ q, (t.entry e).holdingState q = some .awarded →
    (s.entry e).holdingState q = some .awarded ∧ ∀ k, t.slot q k = s.slot q k
  ended : ∀ q, (t.entry e).holdingState q ≠ some .awarded → ∀ k, grantNames (t.slot q k) e = false

/-- A grant: the slot and its AWARDED holding come to stand together, in an entry that was FREE or that goes on as it was. -/
structure Gains (s t : State) (p : Port) (k : SlotNo) (d : Descriptor) (g : Grant) : Prop where
  others : othersKept s t g.handle.entry
  queue : t.waitQueue = s.waitQueue.erase ⟨p, k⟩ ∨ (s.slot p k = .empty ∧ t.waitQueue = s.waitQueue)
  states : ∀ q, (t.port q).state = (s.port q).state
  slots : ∀ q j, t.slot q j = if q = p ∧ j = k then .granted d g else s.slot q j
  asked : s.slot p k = .waiting d ∨ (s.slot p k = .empty ∧ s.overlapsOwn p d.range = false)
  serving : (s.port p).state.vacant = false
  free : s.slot p k = .waiting d → ∀ f, (s.entry f).conflicts d = false
  shape : EntryShape (t.entry g.handle.entry)
  live : (t.entry g.handle.entry).state = .live
  generation : (t.entry g.handle.entry).generation = g.handle.generation ∧ g.handle.generation ≠ 0
  range : (t.entry g.handle.entry).range = d.range
  adopted : g.kind = .adopted → (t.entry g.handle.entry).mode = .exclusive
  newcomer : (s.entry g.handle.entry).holdingOf p = none
  holding : ∀ q, (t.entry g.handle.entry).holdingState q =
    if q = p then some .awarded else (s.entry g.handle.entry).holdingState q
  /-- The entry was in use, and goes on with its range, mode and contest; or it was FREE and is the claim's. -/
  entry :
    ((s.entry g.handle.entry).state ≠ .free ∧ (t.entry g.handle.entry).range = (s.entry g.handle.entry).range ∧
      (t.entry g.handle.entry).generation = (s.entry g.handle.entry).generation ∧
      (t.entry g.handle.entry).contested = (s.entry g.handle.entry).contested ∧
      (t.entry g.handle.entry).countsAs = (s.entry g.handle.entry).countsAs) ∨
    ((s.entry g.handle.entry).state = .free ∧ (∀ f, (s.entry f).conflicts d = false) ∧
      (t.entry g.handle.entry).mode = d.mode ∧
      (t.entry g.handle.entry).contested = (s.claims (s.waitQueue.erase ⟨p, k⟩)).any fun c => c.conflicts d)

/-- A claim begins to wait, and every entry that it conflicts with is contested (R55). -/
structure Waits (s t : State) (p : Port) (k : SlotNo) (d : Descriptor) : Prop where
  entry : ∀ e, t.entry e =
    if (s.entry e).conflicts d = true ∧ (s.entry e).contested = false then contestedEntry s.graceTicks (s.entry e)
    else s.entry e
  queue : t.waitQueue = s.waitQueue ++ [⟨p, k⟩]
  states : ∀ q, (t.port q).state = (s.port q).state
  slots : ∀ q j, t.slot q j = if q = p ∧ j = k then .waiting d else s.slot q j
  asked : s.slot p k = .empty ∧ s.overlapsOwn p d.range = false
  serving : (s.port p).state.vacant = false

/-- A waiting claim leaves, and every entry that it alone contested is contested no more (R56). -/
structure Withdrawn (s t : State) (p : Port) (k : SlotNo) (d : Descriptor) : Prop where
  entry : ∀ e, t.entry e =
    if (s.entry e).conflicts d = true ∧
        (s.claims (s.waitQueue.filter fun c => c != ⟨p, k⟩)).any (fun c => (s.entry e).conflicts c) = false
    then uncontestedEntry (s.entry e) else s.entry e
  queue : t.waitQueue = s.waitQueue.erase ⟨p, k⟩
  states : ∀ q, (t.port q).state = (s.port q).state
  slots : ∀ q j, t.slot q j = if q = p ∧ j = k then .empty else s.slot q j
  asked : s.slot p k = .waiting d

/-- The tables are as part reset leaves them (R135). -/
structure Cleared (t : State) : Prop where
  entry : ∀ e, t.entry e = Entry.unused
  slots : ∀ q j, t.slot q j = .empty
  queue : t.waitQueue = []

/-- One event's change of the tables. -/
inductive Change (s t : State) : Prop
  | recorded (h : Recorded s t)
  | wanes (e : EntryId) (h : Wanes s t e)
  | gains (p : Port) (k : SlotNo) (d : Descriptor) (g : Grant) (h : Gains s t p k d g)
  | waits (p : Port) (k : SlotNo) (d : Descriptor) (h : Waits s t p k d)
  | withdrawn (p : Port) (k : SlotNo) (d : Descriptor) (h : Withdrawn s t p k d)
  | cleared (h : Cleared t)

/-! ## Slots, grants and claims -/

theorem State.claimAt_eq_some {s : State} {c : ClaimId} {d : Descriptor} :
    s.claimAt c = some d ↔ s.slot c.port c.slot = .waiting d := by
  unfold State.claimAt
  cases s.slot c.port c.slot <;> simp

theorem State.claimAt_of_slot {s t : State} {c : ClaimId} (h : t.slot c.port c.slot = s.slot c.port c.slot) :
    t.claimAt c = s.claimAt c := by
  unfold State.claimAt; rw [h]

theorem grantNames_iff {x : Slot} {e : EntryId} :
    grantNames x e = true ↔ ∃ d g, x = .granted d g ∧ g.handle.entry = e := by
  cases x <;> simp [grantNames, grantIn]

@[simp] theorem grantNames_empty (e : EntryId) : grantNames .empty e = false := rfl
@[simp] theorem grantNames_waiting (d : Descriptor) (e : EntryId) : grantNames (.waiting d) e = false := rfl
@[simp] theorem grantNames_denied (d : Descriptor) (c : DenialCause) (e : EntryId) : grantNames (.denied d c) e = false := rfl
@[simp] theorem grantNames_granted (d : Descriptor) (g : Grant) (e : EntryId) :
    grantNames (.granted d g) e = (g.handle.entry == e) := rfl

theorem grantNames_of_core {x y : Slot} (h : grantCore y = grantCore x) (e : EntryId) : grantNames y e = grantNames x e := by
  have key : ∀ z : Slot, grantNames z e = (grantCore z).any fun c => c.2.1.entry == e := by
    intro z; cases z <;> rfl
  rw [key, key, h]

/-- The law of grants, of one GRANTED slot. -/
theorem grantHasHolding_iff {s : State} : GrantHasHolding s ↔ ∀ p k d g, s.slot p k = .granted d g →
    (s.entry g.handle.entry).state = .live ∧ (s.entry g.handle.entry).generation = g.handle.generation ∧
    (s.entry g.handle.entry).holdingState p = some .awarded ∧ (s.entry g.handle.entry).range = d.range ∧
    (g.kind = .adopted → (s.entry g.handle.entry).mode = .exclusive) := by
  constructor
  · intro h p k d g hg
    exact h p k (d, g) (by simp [hg, grantIn])
  · intro h p k ⟨d, g⟩ hg
    refine h p k d g ?_
    cases hs : s.slot p k <;> simp_all [grantIn]

/-- A slot whose grant names an entry answers an AWARDED holding there (R63). -/
theorem TableLaw.awarded_of_names {s : State} (h : TableLaw s) {p : Port} {k : SlotNo} {e : EntryId}
    (hn : grantNames (s.slot p k) e = true) : (s.entry e).holdingState p = some .awarded := by
  obtain ⟨d, g, hg, rfl⟩ := grantNames_iff.1 hn
  obtain ⟨-, -, hawarded, -⟩ := grantHasHolding_iff.1 h.grants p k d g hg
  exact hawarded

/-- One port has one slot at most whose grant names an entry (R63). -/
theorem TableLaw.names_unique {s : State} (h : TableLaw s) {p : Port} {j k : SlotNo} {e : EntryId}
    (hj : grantNames (s.slot p j) e = true) (hk : grantNames (s.slot p k) e = true) : j = k := by
  obtain ⟨i, -, hi⟩ := h.holdings e p (h.awarded_of_names hj)
  rw [hi j hj, hi k hk]

/-! ## The laws of the lease table under each change -/

theorem TablesAlike.tableLaw {s t : State} (h : TablesAlike s t) (hs : TableLaw s) : TableLaw t where
  shape e := (h.entry e).shape (hs.shape e)
  named e := by rw [(h.entry e).state, (h.entry e).generation]; exact hs.named e
  exclusive e := by rw [(h.entry e).state, (h.entry e).mode]; exact hs.exclusive e
  vacant p hp := by
    rcases h.vacant p hp with ⟨hv, he⟩ | he
    · exact fun k => he k (hs.vacant p hv k)
    · exact he
  gone p hp e := by
    rw [(h.entry e).holdingOf_eq_none]
    rcases h.gone p hp with hg | hg
    · exact hs.gone p hg e
    · exact hg e
  grants := by
    refine grantHasHolding_iff.2 fun p k d g hg => ?_
    have hc := h.grant p k
    cases hsl : s.slot p k with
    | granted d' g' =>
      simp only [hg, hsl, grantCore, grantIn, Option.map_some, Option.some.injEq, Prod.mk.injEq] at hc
      obtain ⟨hr, hh, hk⟩ := hc
      have hx := h.entry g.handle.entry
      obtain ⟨h1, h2, h3, h4, h5⟩ := grantHasHolding_iff.1 hs.grants p k d' g' hsl
      rw [← hh] at h1 h2 h3 h4 h5
      exact ⟨hx.state.trans h1, hx.generation.trans h2, (hx.awarded p).2 h3, by rw [hx.range, h4, hr],
        fun ha => hx.mode.trans (h5 (hk ▸ ha))⟩
    | _ => simp [hg, hsl, grantCore, grantIn] at hc
  holdings e p hp := by
    obtain ⟨k, hk, hu⟩ := hs.holdings e p (((h.entry e).awarded p).1 hp)
    refine ⟨k, by rwa [grantNames_of_core (h.grant p k)], fun k' hk' => hu k' ?_⟩
    rwa [← grantNames_of_core (h.grant p k')]

theorem Wanes.tableLaw {s t : State} {e : EntryId} (h : Wanes s t e) (hs : TableLaw s) : TableLaw t where
  shape f := by
    by_cases hf : f = e
    · exact hf ▸ h.shape
    · rw [h.others f hf]; exact hs.shape f
  named f hn := by
    by_cases hf : f = e
    · subst hf
      obtain ⟨hu, hg, -⟩ := h.still hn
      rw [hg]; exact hs.named f hu
    · rw [h.others f hf] at hn ⊢; exact hs.named f hn
  exclusive f ho := by
    by_cases hf : f = e
    · subst hf
      obtain ⟨-, -, hm, -, -, hc⟩ := h.still (by simp [ho])
      rw [hm]
      by_cases hso : (s.entry f).state = .orphaned
      · exact hs.exclusive f hso
      · simpa [Entry.countsAs, ho, hso] using hc.symm
    · rw [h.others f hf] at ho ⊢; exact hs.exclusive f ho
  vacant p hp k := by
    rcases h.slots p k with hk | ⟨-, hk⟩
    · rw [hk]; exact hs.vacant p (h.states p ▸ hp) k
    · exact hk
  gone p hp f := by
    have hn := hs.gone p (h.states p ▸ hp) f
    by_cases hf : f = e
    · subst hf; exact h.holders p hn
    · rw [h.others f hf]; exact hn
  grants := by
    refine grantHasHolding_iff.2 fun p k d g hg => ?_
    have hsg : s.slot p k = .granted d g := by
      rcases h.slots p k with hk | ⟨-, hk⟩
      · rw [← hk, hg]
      · rw [hk] at hg; cases hg
    obtain ⟨h1, h2, h3, h4, h5⟩ := grantHasHolding_iff.1 hs.grants p k d g hsg
    by_cases hf : g.handle.entry = e
    · have ha : (t.entry e).holdingState p = some .awarded := by
        by_contra hn
        have := h.ended p hn k
        simp [hg, hf] at this
      have hl := entryShape_live_of_holdingState h.shape ha
      obtain ⟨-, hgen, hm, hr, -, -⟩ := h.still (by simp [hl])
      rw [hf] at h1 h2 h3 h4 h5 ⊢
      exact ⟨hl, hgen.trans h2, ha, hr.trans h4, fun hk => hm.trans (h5 hk)⟩
    · rw [h.others _ hf]; exact ⟨h1, h2, h3, h4, h5⟩
  holdings f p hp := by
    by_cases hf : f = e
    · subst hf
      obtain ⟨hsp, hk⟩ := h.awarded p hp
      simpa only [hk] using hs.holdings f p hsp
    · rw [h.others f hf] at hp
      obtain ⟨k, hk, hu⟩ := hs.holdings f p hp
      have hsame : ∀ j, grantNames (t.slot p j) f = grantNames (s.slot p j) f := by
        intro j
        rcases h.slots p j with hj | ⟨hn, hj⟩
        · rw [hj]
        · obtain ⟨d, g, hg, he⟩ := grantNames_iff.1 hn
          simp [hj, hg, he, Ne.symm hf]
      exact ⟨k, by rw [hsame, hk], fun j hj => hu j (by rw [← hsame, hj])⟩

theorem Gains.tableLaw {s t : State} {p : Port} {k : SlotNo} {d : Descriptor} {g : Grant} (h : Gains s t p k d g)
    (hs : TableLaw s) : TableLaw t where
  shape f := by
    by_cases hf : f = g.handle.entry
    · exact hf ▸ h.shape
    · rw [h.others f hf]; exact hs.shape f
  named f hn := by
    by_cases hf : f = g.handle.entry
    · rw [hf, h.generation.1]; exact h.generation.2
    · rw [h.others f hf] at hn ⊢; exact hs.named f hn
  exclusive f ho := by
    by_cases hf : f = g.handle.entry
    · rw [hf, h.live] at ho; cases ho
    · rw [h.others f hf] at ho ⊢; exact hs.exclusive f ho
  vacant q hq j := by
    rw [h.states] at hq
    have hqp : q ≠ p := fun hc => by rw [hc, h.serving] at hq; cases hq
    rw [h.slots, if_neg fun hc => hqp hc.1]
    exact hs.vacant q hq j
  gone q hq f := by
    rw [h.states] at hq
    have hqp : q ≠ p := by
      rintro rfl
      have hv := h.serving
      cases hst : (s.port q).state <;> simp_all [PortState.gone, PortState.vacant]
    by_cases hf : f = g.handle.entry
    · rw [hf, ← Entry.holdingState_eq_none, h.holding, if_neg hqp, Entry.holdingState_eq_none]
      exact hs.gone q hq _
    · rw [h.others f hf]; exact hs.gone q hq f
  grants := by
    refine grantHasHolding_iff.2 fun q j d' g' hg => ?_
    rw [h.slots] at hg
    by_cases hqj : q = p ∧ j = k
    · rw [if_pos hqj] at hg
      cases hg
      obtain ⟨rfl, rfl⟩ := hqj
      exact ⟨h.live, h.generation.1, by rw [h.holding, if_pos rfl], h.range, h.adopted⟩
    · rw [if_neg hqj] at hg
      obtain ⟨h1, h2, h3, h4, h5⟩ := grantHasHolding_iff.1 hs.grants q j d' g' hg
      by_cases hf : g'.handle.entry = g.handle.entry
      · rw [hf] at h1 h2 h3 h4 h5 ⊢
        have hqp : q ≠ p := by
          rintro rfl
          have := h.newcomer
          rw [← Entry.holdingState_eq_none, h3] at this
          cases this
        rcases h.entry with ⟨-, hr, hgen, -, hc⟩ | ⟨hfree, -⟩
        · refine ⟨h.live, hgen.trans h2, by rw [h.holding, if_neg hqp, h3], hr.trans h4, fun ha => ?_⟩
          simpa [Entry.countsAs, h.live, h1, h5 ha] using hc
        · rw [h1] at hfree; cases hfree
      · rw [h.others _ hf]; exact ⟨h1, h2, h3, h4, h5⟩
  holdings f q hq := by
    by_cases hf : f = g.handle.entry
    · subst hf
      rw [h.holding] at hq
      by_cases hqp : q = p
      · subst hqp
        refine ⟨k, by simp [h.slots], fun j hj => ?_⟩
        by_contra hjk
        rw [h.slots, if_neg fun hc => hjk hc.2] at hj
        have := hs.awarded_of_names hj
        rw [Entry.holdingState_eq_none.2 h.newcomer] at this
        cases this
      · rw [if_neg hqp] at hq
        simpa [h.slots, hqp] using hs.holdings _ q hq
    · rw [h.others f hf] at hq
      obtain ⟨j, hj, hu⟩ := hs.holdings f q hq
      have hsame : ∀ i, grantNames (t.slot q i) f = grantNames (s.slot q i) f := by
        intro i
        rw [h.slots]
        split_ifs with hc
        · obtain ⟨rfl, rfl⟩ := hc
          rcases h.asked with ha | ⟨ha, -⟩ <;> simp [ha, Ne.symm hf]
        · rfl
      exact ⟨j, by rw [hsame, hj], fun i hi => hu i (by rw [← hsame, hi])⟩

theorem Waits.tablesAlike {s t : State} {p : Port} {k : SlotNo} {d : Descriptor} (h : Waits s t p k d) :
    TablesAlike s t where
  entry e := by
    rw [h.entry]
    split_ifs with hc
    · refine entryAlike_contestedEntry _ fun hf => ?_
      simp [Entry.conflicts, hf] at hc
    · exact EntryAlike.refl _
  grant q j := by
    rw [h.slots]
    split_ifs with hc
    · obtain ⟨rfl, rfl⟩ := hc
      rw [h.asked.1]; rfl
    · rfl
  vacant q hq := by
    rw [h.states] at hq
    have hqp : q ≠ p := fun hc => by rw [hc, h.serving] at hq; cases hq
    exact .inl ⟨hq, fun j hj => by rw [h.slots, if_neg fun hc => hqp hc.1, hj]⟩
  gone q hq := .inl (h.states q ▸ hq)

theorem Withdrawn.tablesAlike {s t : State} {p : Port} {k : SlotNo} {d : Descriptor} (h : Withdrawn s t p k d) :
    TablesAlike s t where
  entry e := by
    rw [h.entry]
    split_ifs with hc
    · refine entryAlike_uncontestedEntry fun hf => ?_
      simp [Entry.conflicts, hf] at hc
    · exact EntryAlike.refl _
  grant q j := by
    rw [h.slots]
    split_ifs with hc
    · obtain ⟨rfl, rfl⟩ := hc
      rw [h.asked]; rfl
    · rfl
  vacant q hq := by
    refine .inl ⟨h.states q ▸ hq, fun j hj => ?_⟩
    rw [h.slots, hj]
    split_ifs <;> rfl
  gone q hq := .inl (h.states q ▸ hq)

theorem Cleared.tableLaw {t : State} (h : Cleared t) : TableLaw t where
  shape e := by rw [h.entry]; exact entryShape_unused 0
  named e hn := absurd (by rw [h.entry]; rfl) hn
  exclusive e ho := by rw [h.entry] at ho; cases ho
  vacant p _ k := h.slots p k
  gone p _ e := by rw [h.entry]; rfl
  grants := grantHasHolding_iff.2 fun p k d g hg => by rw [h.slots] at hg; cases hg
  holdings e p hp := by rw [h.entry] at hp; cases hp

theorem Change.tableLaw {s t : State} (h : Change s t) (hs : TableLaw s) : TableLaw t := by
  cases h with
  | recorded h => exact h.tableLaw hs
  | wanes e h => exact h.tableLaw hs
  | gains p k d g h => exact h.tableLaw hs
  | waits p k d h => exact h.tablesAlike.tableLaw hs
  | withdrawn p k d h => exact h.tablesAlike.tableLaw hs
  | cleared h => exact h.tableLaw

end Sys2Proof.Machine
end

section
/-! SUPPORT. The laws of the ranges, of the queue and of contest under each way in which an event changes the tables. -/

namespace Sys2Proof.Machine

/-! ## Conflict between entries (R6) -/

theorem overlaps_comm (a b : PageRange) : a.overlaps b = b.overlaps a := by
  unfold PageRange.overlaps; rw [Bool.and_comm]

theorem clash_comm (a b : Mode) : a.clash b = b.clash a := by
  unfold Mode.clash; rw [Bool.or_comm]

theorem conflicts_comm (a b : Descriptor) : a.conflicts b = b.conflicts a := by
  unfold Descriptor.conflicts; rw [overlaps_comm, clash_comm]

theorem clash_eq_false {a b : Mode} : a.clash b = false ↔ a = .shared ∧ b = .shared := by
  cases a <;> cases b <;> decide

/-- Entries that count alike conflict alike. -/
theorem entry_conflicts_congr {x y : Entry} (hs : x.state ≠ .free) (hs' : y.state ≠ .free) (hr : y.range = x.range)
    (hc : y.countsAs = x.countsAs) (d : Descriptor) : y.conflicts d = x.conflicts d := by
  unfold Entry.conflicts; rw [hr, hc, bne_iff_ne.2 hs, bne_iff_ne.2 hs']

theorem entry_conflicts_free {x : Entry} (hs : x.state = .free) (d : Descriptor) : x.conflicts d = false := by
  simp [Entry.conflicts, hs]

/-- Entries that are in use afterwards were so before, with the same range, counting as the same mode. -/
abbrev FewerInUse (s t : State) : Prop :=
  ∀ e, (t.entry e).state ≠ .free → (s.entry e).state ≠ .free ∧ (t.entry e).range = (s.entry e).range ∧
    (t.entry e).countsAs = (s.entry e).countsAs

theorem FewerInUse.noConflict {s t : State} (h : FewerInUse s t) (hs : NoConflict s) : NoConflict t := by
  intro e f hne he hf ho
  obtain ⟨he', hre, hce⟩ := h e he
  obtain ⟨hf', hrf, hcf⟩ := h f hf
  rw [hre, hrf] at ho
  rw [hce, hcf]
  exact hs e f hne he' hf' ho

theorem TablesAlike.fewerInUse {s t : State} (h : TablesAlike s t) : FewerInUse s t := fun e he =>
  ⟨(h.entry e).state ▸ he, (h.entry e).range, (h.entry e).countsAs⟩

theorem Wanes.fewerInUse {s t : State} {e : EntryId} (h : Wanes s t e) : FewerInUse s t := by
  intro f hf
  by_cases hfe : f = e
  · subst hfe
    obtain ⟨hu, -, -, hr, -, hc⟩ := h.still hf
    exact ⟨hu, hr, hc⟩
  · rw [h.others f hfe] at hf ⊢; exact ⟨hf, rfl, rfl⟩

theorem Gains.noConflict {s t : State} {p : Port} {k : SlotNo} {d : Descriptor} {g : Grant} (h : Gains s t p k d g)
    (hs : NoConflict s) : NoConflict t := by
  rcases h.entry with ⟨hu, hr, -, -, hc⟩ | ⟨-, hfree, hm, -⟩
  · refine FewerInUse.noConflict (fun f hf => ?_) hs
    by_cases hfe : f = g.handle.entry
    · subst hfe; exact ⟨hu, hr, hc⟩
    · rw [h.others f hfe] at hf ⊢; exact ⟨hf, rfl, rfl⟩
  · -- The claim conflicts with no entry in use, so what shares its pages is SHARED, as it is.
    have new : ∀ f, f ≠ g.handle.entry → (s.entry f).state ≠ .free → (s.entry f).range.overlaps d.range = true →
        (s.entry f).countsAs = .shared ∧ (t.entry g.handle.entry).countsAs = .shared := by
      intro f _ hf ho
      have hcl : (s.entry f).countsAs.clash d.mode = false := by
        have := hfree f
        simpa [Entry.conflicts, hf, ho] using this
      obtain ⟨h1, h2⟩ := clash_eq_false.1 hcl
      exact ⟨h1, by simp [Entry.countsAs, h.live, hm, h2]⟩
    intro e f hne he hf ho
    by_cases hee : e = g.handle.entry
    · subst hee
      rw [h.others f (Ne.symm hne)] at hf ho ⊢
      rw [h.range, overlaps_comm] at ho
      exact (new f (Ne.symm hne) hf ho).symm
    · rw [h.others e hee] at he ho ⊢
      by_cases hfe : f = g.handle.entry
      · subst hfe
        rw [h.range] at ho
        exact new e hee he ho
      · rw [h.others f hfe] at hf ho ⊢
        exact hs e f hne he hf ho

theorem Change.noConflict {s t : State} (h : Change s t) (hs : NoConflict s) : NoConflict t := by
  cases h with
  | recorded h => exact h.fewerInUse.noConflict hs
  | wanes e h => exact h.fewerInUse.noConflict hs
  | gains p k d g h => exact h.noConflict hs
  | waits p k d h => exact h.tablesAlike.fewerInUse.noConflict hs
  | withdrawn p k d h => exact h.tablesAlike.fewerInUse.noConflict hs
  | cleared h => exact fun e f _ he => absurd (by rw [h.entry]; rfl) he

/-! ## A port's own ranges (R29) -/

/-- A port's holdings and claims afterwards are among those it had, each with its range. -/
structure FewerOwn (s t : State) : Prop where
  holding : ∀ p e, ((t.entry e).holdingOf p).isSome = true →
    ((s.entry e).holdingOf p).isSome = true ∧ (t.entry e).range = (s.entry e).range
  claim : ∀ c d, t.claimAt c = some d → s.claimAt c = some d

theorem FewerOwn.ownRangesApart {s t : State} (h : FewerOwn s t) (hs : OwnRangesApart s) : OwnRangesApart t := by
  intro p
  obtain ⟨hh, hc⟩ := hs p
  refine ⟨fun e f hne he hf => ?_, fun k d hd => ⟨fun e he => ?_, fun k' hne d' hd' => ?_⟩⟩
  · obtain ⟨he', hre⟩ := h.holding p e he
    obtain ⟨hf', hrf⟩ := h.holding p f hf
    rw [hre, hrf]; exact hh e f hne he' hf'
  · obtain ⟨he', hre⟩ := h.holding p e he
    rw [hre]; exact (hc k d (h.claim _ d hd)).1 e he'
  · exact (hc k d (h.claim _ d hd)).2 k' hne d' (h.claim _ d' hd')

theorem TablesAlike.fewerOwn {s t : State} (h : TablesAlike s t) (hc : ∀ c d, t.claimAt c = some d → s.claimAt c = some d) :
    FewerOwn s t where
  holding p e he := ⟨(h.entry e).holdingOf_isSome p ▸ he, (h.entry e).range⟩
  claim := hc

/-- The claims that wait stay while an entry wanes. -/
theorem Wanes.claimAt {s t : State} {e : EntryId} (h : Wanes s t e) (c : ClaimId) : t.claimAt c = s.claimAt c := by
  rcases h.slots c.port c.slot with hc | ⟨hn, hc⟩
  · exact State.claimAt_of_slot hc
  · obtain ⟨d, g, hg, -⟩ := grantNames_iff.1 hn
    simp [State.claimAt, hc, hg]

theorem Wanes.fewerOwn {s t : State} {e : EntryId} (h : Wanes s t e) : FewerOwn s t where
  holding p f hf := by
    by_cases hfe : f = e
    · subst hfe
      have hl : (t.entry f).state = .live := by
        by_contra hn
        rw [entryShape_holdingOf_of_state h.shape hn] at hf; cases hf
      obtain ⟨-, -, -, hr, -, -⟩ := h.still (by simp [hl])
      refine ⟨?_, hr⟩
      rw [← Option.ne_none_iff_isSome] at hf ⊢
      exact fun hn => hf (h.holders p hn)
    · rw [h.others f hfe] at hf ⊢; exact ⟨hf, rfl⟩
  claim c d hd := by rwa [h.claimAt] at hd

/-- A slot asks for pages that no holding and no other claim of its port has. -/
abbrev AsksApart (s : State) (p : Port) (k : SlotNo) (r : PageRange) : Prop :=
  (∀ e, ((s.entry e).holdingOf p).isSome = true → (s.entry e).range.overlaps r = false) ∧
  ∀ k', k' ≠ k → ∀ d' ∈ s.claimAt ⟨p, k'⟩, d'.range.overlaps r = false

theorem asksApart_of_overlapsOwn {s : State} {p : Port} {k : SlotNo} {r : PageRange} (h : s.overlapsOwn p r = false) :
    AsksApart s p k r := by
  have hn : ¬s.overlapsOwn p r = true := by simp [h]
  rw [State.overlapsOwn_iff] at hn
  push Not at hn
  obtain ⟨hh, hc⟩ := hn
  refine ⟨fun e he => by simpa using hh e he, fun k' _ d' hd' => ?_⟩
  have hw : s.slot p k' = .waiting d' := State.claimAt_eq_some.1 hd'
  simpa using hc k' d' (by simp [hw, liveClaim])

theorem Gains.asksApart {s t : State} {p : Port} {k : SlotNo} {d : Descriptor} {g : Grant} (h : Gains s t p k d g)
    (hs : OwnRangesApart s) : AsksApart s p k d.range := by
  rcases h.asked with hw | ⟨-, ho⟩
  · exact (hs p).2 k d (State.claimAt_eq_some.2 hw)
  · exact asksApart_of_overlapsOwn ho

theorem Gains.claimAt {s t : State} {p : Port} {k : SlotNo} {d : Descriptor} {g : Grant} (h : Gains s t p k d g)
    (c : ClaimId) : t.claimAt c = if c = ⟨p, k⟩ then none else s.claimAt c := by
  obtain ⟨q, j⟩ := c
  simp only [State.claimAt, h.slots, ClaimId.mk.injEq]
  split_ifs with hc <;> rfl

/-- The claim that is granted leaves the queue, if it was there. -/
theorem Gains.queue_eq {s t : State} {p : Port} {k : SlotNo} {d : Descriptor} {g : Grant} (h : Gains s t p k d g)
    (hq : QueueLaw s) : t.waitQueue = s.waitQueue.erase ⟨p, k⟩ := by
  rcases h.queue with hw | ⟨he, hw⟩
  · exact hw
  · rw [List.erase_of_not_mem, hw]
    rw [hq.2]
    simp [State.claimAt, he]

theorem Gains.ownRangesApart {s t : State} {p : Port} {k : SlotNo} {d : Descriptor} {g : Grant} (h : Gains s t p k d g)
    (hshape : ∀ e, EntryShape (s.entry e)) (hs : OwnRangesApart s) : OwnRangesApart t := by
  obtain ⟨hown, hother⟩ := h.asksApart hs
  have hclaim : ∀ c d', t.claimAt c = some d' → c ≠ ⟨p, k⟩ ∧ s.claimAt c = some d' := by
    intro c d' hd
    rw [h.claimAt] at hd
    split_ifs at hd with hc
    exact ⟨hc, hd⟩
  -- A holding is the new one, or was there with the same range.
  have hhold : ∀ q e, ((t.entry e).holdingOf q).isSome = true →
      (q = p ∧ e = g.handle.entry) ∨ (((s.entry e).holdingOf q).isSome = true ∧ (t.entry e).range = (s.entry e).range) := by
    intro q e he
    by_cases hee : e = g.handle.entry
    · subst hee
      by_cases hq : q = p
      · exact .inl ⟨hq, rfl⟩
      · rw [← Entry.holdingState_isSome, h.holding, if_neg hq, Entry.holdingState_isSome] at he
        refine .inr ⟨he, ?_⟩
        rcases h.entry with ⟨-, hr, -⟩ | ⟨hfree, -⟩
        · exact hr
        · rw [entryShape_holdingOf_of_state (hshape _) (by simp [hfree])] at he; cases he
    · rw [h.others e hee] at he ⊢; exact .inr ⟨he, rfl⟩
  intro q
  obtain ⟨hh, hc⟩ := hs q
  refine ⟨fun e f hne he hf => ?_, fun j d' hd' => ⟨fun e he => ?_, fun j' hne d'' hd'' => ?_⟩⟩
  · rcases hhold q e he with ⟨rfl, rfl⟩ | ⟨he', hre⟩ <;> rcases hhold q f hf with ⟨hq, rfl⟩ | ⟨hf', hrf⟩
    · exact absurd rfl hne
    · rw [h.range, hrf, overlaps_comm]; exact hown f hf'
    · subst hq; rw [h.range, hre]; exact hown e he'
    · rw [hre, hrf]; exact hh e f hne he' hf'
  · obtain ⟨hjk, hd'⟩ := hclaim _ d' hd'
    rcases hhold q e he with ⟨rfl, rfl⟩ | ⟨he', hre⟩
    · rw [h.range, overlaps_comm]
      exact hother j (fun hj => hjk (by rw [hj])) d' hd'
    · rw [hre]; exact (hc j d' hd').1 e he'
  · exact (hc j d' (hclaim _ d' hd').2).2 j' hne d'' (hclaim _ d'' hd'').2

theorem Waits.claimAt {s t : State} {p : Port} {k : SlotNo} {d : Descriptor} (h : Waits s t p k d) (c : ClaimId) :
    t.claimAt c = if c = ⟨p, k⟩ then some d else s.claimAt c := by
  obtain ⟨q, j⟩ := c
  simp only [State.claimAt, h.slots, ClaimId.mk.injEq]
  split_ifs with hc <;> rfl

theorem Waits.ownRangesApart {s t : State} {p : Port} {k : SlotNo} {d : Descriptor} (h : Waits s t p k d)
    (hs : OwnRangesApart s) : OwnRangesApart t := by
  obtain ⟨hown, hother⟩ := asksApart_of_overlapsOwn (k := k) h.asked.2
  have halike := h.tablesAlike
  have hhold : ∀ q e, ((t.entry e).holdingOf q).isSome = true →
      ((s.entry e).holdingOf q).isSome = true ∧ (t.entry e).range = (s.entry e).range := fun q e he =>
    ⟨(halike.entry e).holdingOf_isSome q ▸ he, (halike.entry e).range⟩
  have hclaim : ∀ c d', t.claimAt c = some d' → (c = ⟨p, k⟩ ∧ d' = d) ∨ (c ≠ ⟨p, k⟩ ∧ s.claimAt c = some d') := by
    intro c d' hd
    rw [h.claimAt] at hd
    split_ifs at hd with hc
    · exact .inl ⟨hc, (Option.some.inj hd).symm⟩
    · exact .inr ⟨hc, hd⟩
  intro q
  obtain ⟨hh, hc⟩ := hs q
  refine ⟨fun e f hne he hf => ?_, fun j d' hd' => ⟨fun e he => ?_, fun j' hne d'' hd'' => ?_⟩⟩
  · rw [(hhold q e he).2, (hhold q f hf).2]
    exact hh e f hne (hhold q e he).1 (hhold q f hf).1
  · rw [(hhold q e he).2]
    rcases hclaim _ d' hd' with ⟨hc', rfl⟩ | ⟨-, hd'⟩
    · cases hc'; exact hown e (hhold _ e he).1
    · exact (hc j d' hd').1 e (hhold q e he).1
  · rcases hclaim _ d' hd' with ⟨hc', rfl⟩ | ⟨hc', hd'⟩ <;> rcases hclaim _ d'' hd'' with ⟨hc'', rfl⟩ | ⟨hc'', hd''⟩
    · cases hc'; cases hc''; exact absurd rfl hne
    · cases hc'; exact hother j' hne d'' hd''
    · cases hc''
      rw [overlaps_comm]; exact hother j (Ne.symm hne) d' hd'
    · exact (hc j d' hd').2 j' hne d'' hd''

theorem Withdrawn.claimAt {s t : State} {p : Port} {k : SlotNo} {d : Descriptor} (h : Withdrawn s t p k d) (c : ClaimId) :
    t.claimAt c = if c = ⟨p, k⟩ then none else s.claimAt c := by
  obtain ⟨q, j⟩ := c
  simp only [State.claimAt, h.slots, ClaimId.mk.injEq]
  split_ifs with hc <;> rfl

theorem Change.ownRangesApart {s t : State} (h : Change s t) (hshape : ∀ e, EntryShape (s.entry e)) (hs : OwnRangesApart s) :
    OwnRangesApart t := by
  cases h with
  | recorded h => exact (h.fewerOwn fun c d hd => h.claim c ▸ hd).ownRangesApart hs
  | wanes e h => exact h.fewerOwn.ownRangesApart hs
  | gains p k d g h => exact h.ownRangesApart hshape hs
  | waits p k d h => exact h.ownRangesApart hs
  | withdrawn p k d h =>
    refine (h.tablesAlike.fewerOwn fun c d' hd => ?_).ownRangesApart hs
    rw [h.claimAt] at hd
    split_ifs at hd
    exact hd
  | cleared h =>
    refine fun p => ⟨fun e f _ he => ?_, fun k d hd => ?_⟩
    · rw [h.entry] at he; cases he
    · simp [State.claimAt, h.slots] at hd

/-! ## The queue (R33) -/

theorem claims_congr {s t : State} {cs : List ClaimId} (h : ∀ c ∈ cs, t.claimAt c = s.claimAt c) :
    t.claims cs = s.claims cs := List.filterMap_congr h

/-- A change that takes one place out of the queue, whose slot waits no more. -/
theorem queueLaw_erase {s t : State} {c : ClaimId} (hq : t.waitQueue = s.waitQueue.erase c)
    (hc : ∀ b, t.claimAt b = if b = c then none else s.claimAt b) (hs : QueueLaw s) : QueueLaw t := by
  obtain ⟨hn, hm⟩ := hs
  refine ⟨hq ▸ hn.erase c, fun p k => ?_⟩
  rw [hq, hn.mem_erase_iff, hm, hc]
  by_cases hb : (⟨p, k⟩ : ClaimId) = c <;> simp [hb]

theorem queueLaw_of_same {s t : State} (hq : t.waitQueue = s.waitQueue) (hc : ∀ b, t.claimAt b = s.claimAt b)
    (hs : QueueLaw s) : QueueLaw t := by
  unfold QueueLaw
  simpa only [hq, hc] using hs

theorem Waits.queueLaw {s t : State} {p : Port} {k : SlotNo} {d : Descriptor} (h : Waits s t p k d) (hs : QueueLaw s) :
    QueueLaw t := by
  obtain ⟨hn, hm⟩ := hs
  have hnot : (⟨p, k⟩ : ClaimId) ∉ s.waitQueue := by simp [hm, State.claimAt, h.asked.1]
  refine ⟨?_, fun q j => ?_⟩
  · rw [h.queue, List.nodup_append]
    exact ⟨hn, by simp, fun a ha b hb => by rintro rfl; exact hnot (List.mem_singleton.1 hb ▸ ha)⟩
  · rw [h.queue, List.mem_append, List.mem_singleton, h.claimAt, hm]
    by_cases hb : (⟨q, j⟩ : ClaimId) = ⟨p, k⟩ <;> simp [hb]

theorem Change.queueLaw {s t : State} (h : Change s t) (hs : QueueLaw s) : QueueLaw t := by
  cases h with
  | recorded h => exact queueLaw_of_same h.queue h.claim hs
  | wanes e h => exact queueLaw_of_same h.queue h.claimAt hs
  | gains p k d g h => exact queueLaw_erase (h.queue_eq hs) h.claimAt hs
  | waits p k d h => exact h.queueLaw hs
  | withdrawn p k d h => exact queueLaw_erase h.queue h.claimAt hs
  | cleared h => exact ⟨by simp [h.queue], fun p k => by simp [h.queue, State.claimAt, h.slots]⟩

/-! ## Contest (R55, R56) -/

/-- What the queue asks of an entry, without one of its claims. -/
theorem claims_any_erase {s : State} (f : Descriptor → Bool) {c : ClaimId} {d : Descriptor} (hd : s.claimAt c = some d)
    (hc : c ∈ s.waitQueue) : (s.claims s.waitQueue).any f = (f d || (s.claims (s.waitQueue.erase c)).any f) := by
  have hp : (s.claims s.waitQueue).Perm (d :: s.claims (s.waitQueue.erase c)) := by
    have := (List.perm_cons_erase hc).filterMap s.claimAt
    rwa [List.filterMap_cons_some hd] at this
  rw [hp.any_eq, List.any_cons]

theorem Wanes.contestLaw {s t : State} {e : EntryId} (h : Wanes s t e) (hs : ContestLaw s) : ContestLaw t := by
  intro f
  rw [h.queue, claims_congr fun c _ => h.claimAt c]
  by_cases hf : f = e
  · subst hf
    by_cases hfree : (t.entry f).state = .free
    · have hx := h.shape.1 hfree
      rw [hx]
      simp [Entry.unused, Entry.conflicts]
    · obtain ⟨hu, -, -, hr, hc, hca⟩ := h.still hfree
      rw [hc, hs f]
      exact congrArg _ (funext fun d => (entry_conflicts_congr hu hfree hr hca d).symm)
  · rw [h.others f hf]; exact hs f

theorem Gains.contestLaw {s t : State} {p : Port} {k : SlotNo} {d : Descriptor} {g : Grant} (h : Gains s t p k d g)
    (hq : QueueLaw s) (hs : ContestLaw s) : ContestLaw t := by
  have hqueue := h.queue_eq hq
  obtain ⟨hn, hm⟩ := hq
  have hclaims : t.claims t.waitQueue = s.claims (s.waitQueue.erase ⟨p, k⟩) := by
    rw [hqueue]
    refine claims_congr fun c hc => ?_
    rw [h.claimAt, if_neg fun hcp => ?_]
    subst hcp
    exact hn.not_mem_erase hc
  -- The claim that is granted contested nothing, so the others contest what they did.
  have hrest : ∀ f, (s.entry f).contested = (s.claims (s.waitQueue.erase ⟨p, k⟩)).any fun c => (s.entry f).conflicts c := by
    intro f
    rw [hs f]
    rcases h.asked with hw | ⟨he, -⟩
    · have hd : s.claimAt ⟨p, k⟩ = some d := State.claimAt_eq_some.2 hw
      rw [claims_any_erase _ hd ((hm p k).2 (by rw [hd]; rfl)), h.free hw f, Bool.false_or]
    · rw [List.erase_of_not_mem]
      rw [hm]; simp [State.claimAt, he]
  intro f
  rw [hclaims]
  by_cases hf : f = g.handle.entry
  · subst hf
    rcases h.entry with ⟨hu, hr, -, hc, hca⟩ | ⟨-, -, hmode, hc⟩
    · rw [hc, hrest]
      exact congrArg _ (funext fun b => (entry_conflicts_congr hu (by rw [h.live]; decide) hr hca b).symm)
    · rw [hc]
      refine congrArg _ (funext fun b => ?_)
      have hu : (EntryState.live != EntryState.free) = true := rfl
      rw [conflicts_comm]
      simp [Entry.conflicts, Descriptor.conflicts, Entry.countsAs, h.live, h.range, hmode, hu]
  · rw [h.others f hf]; exact hrest f

theorem Waits.contestLaw {s t : State} {p : Port} {k : SlotNo} {d : Descriptor} (h : Waits s t p k d) (hq : QueueLaw s)
    (hs : ContestLaw s) : ContestLaw t := by
  have hnot : (⟨p, k⟩ : ClaimId) ∉ s.waitQueue := by simp [hq.2, State.claimAt, h.asked.1]
  have hclaims : t.claims t.waitQueue = s.claims s.waitQueue ++ [d] := by
    rw [h.queue]
    unfold State.claims
    rw [List.filterMap_append]
    congr 1
    · refine claims_congr fun c hc => ?_
      rw [h.claimAt]
      exact if_neg (ne_of_mem_of_not_mem hc hnot)
    · simp [h.claimAt]
  intro e
  have hcon : (t.entry e).conflicts = (s.entry e).conflicts := funext ((h.tablesAlike.entry e).conflicts ·)
  rw [hclaims, List.any_append, hcon, ← hs e, h.entry]
  cases hd : (s.entry e).conflicts d <;> cases hx : (s.entry e).contested <;> simp [contestedEntry, hd, hx]

theorem Withdrawn.contestLaw {s t : State} {p : Port} {k : SlotNo} {d : Descriptor} (h : Withdrawn s t p k d)
    (hq : QueueLaw s) (hs : ContestLaw s) : ContestLaw t := by
  obtain ⟨hn, hm⟩ := hq
  have hd : s.claimAt ⟨p, k⟩ = some d := State.claimAt_eq_some.2 h.asked
  have hmem : (⟨p, k⟩ : ClaimId) ∈ s.waitQueue := (hm p k).2 (by rw [hd]; rfl)
  have hclaims : t.claims t.waitQueue = s.claims (s.waitQueue.erase ⟨p, k⟩) := by
    rw [h.queue]
    refine claims_congr fun c hc => ?_
    rw [h.claimAt, if_neg fun hcp => ?_]
    subst hcp
    exact hn.not_mem_erase hc
  intro e
  have hcon : (t.entry e).conflicts = (s.entry e).conflicts := funext ((h.tablesAlike.entry e).conflicts ·)
  have he := hs e
  rw [claims_any_erase _ hd hmem] at he
  rw [hclaims, hcon, h.entry, ← hn.erase_eq_filter]
  split_ifs with hc
  · exact hc.2.symm
  · rw [he]
    cases hx : (s.entry e).conflicts d
    · rfl
    · rw [Bool.true_or]
      by_contra hr
      exact hc ⟨hx, by simpa using Ne.symm hr⟩

theorem Change.contestLaw {s t : State} (h : Change s t) (hq : QueueLaw s) (hs : ContestLaw s) : ContestLaw t := by
  cases h with
  | recorded h =>
    intro e
    rw [h.same, h.queue, claims_congr fun c _ => h.claim c]
    exact hs e
  | wanes e h => exact h.contestLaw hs
  | gains p k d g h => exact h.contestLaw hq hs
  | waits p k d h => exact h.contestLaw hq hs
  | withdrawn p k d h => exact h.contestLaw hq hs
  | cleared h => exact fun e => by rw [h.entry, h.queue]; rfl

end Sys2Proof.Machine
end

section
/-! SUPPORT. The events at one entry: what each leaves of the entry, and that each only takes away (`Wanes`). -/

namespace Sys2Proof.Machine

/-! ## One entry turned into another -/

/-- An event at one entry that makes it `x`: the ports are `before` with some notices set, and nothing else differs but the
call for an evaluation, the engine and its result word. -/
structure Turns (s t : State) (e : EntryId) (x : Entry) (before : Port → PortRec) : Prop where
  frame : leaseFrame s t
  others : othersKept s t e
  entry : t.entry e = x
  ports : ∀ q, ∃ m, t.port q = flagsSet (before q) m

theorem turns_of_becomes {s t : State} {e : EntryId} {x : Entry} {before : Port → PortRec} {marks : Port → BitVec 8}
    (h : becomes s t e x before marks) : Turns s t e x before := by
  obtain ⟨hf, ho, he, -, -, -, hp⟩ := h
  exact ⟨hf, ho, he, fun q => ⟨_, hp q⟩⟩

theorem turns_of_leaves {s t : State} {e : EntryId} {before : Port → PortRec} {marks : Port → BitVec 8}
    (h : leaves s t e before marks) : Turns s t e (leftEntry (s.entry e)) before := by
  unfold leaves at h
  unfold leftEntry
  split_ifs at h ⊢
  · obtain ⟨hf, ho, he, -, -, -, hp⟩ := h
    exact ⟨hf, ho, he, fun q => ⟨_, hp q⟩⟩
  · exact turns_of_becomes h

/-- The entry after a port's holding is gone (R17). -/
def lostEntry (x : Entry) (p : Port) : Entry :=
  if heldByOthers x p = [] then leftEntry x else { x with holdings := heldByOthers x p }

theorem turns_of_losesHolding {s t : State} {e : EntryId} {p : Port} {before : Port → PortRec} {marks : Port → BitVec 8}
    (h : losesHolding s t e p before marks) : Turns s t e (lostEntry (s.entry e) p) before := by
  unfold losesHolding at h
  unfold lostEntry
  split_ifs at h ⊢
  · exact turns_of_leaves h
  · exact turns_of_becomes h

theorem turns_of_givesBack {s t : State} {p : Port} {g : Grant} {before : Port → PortRec} {marks : Port → BitVec 8}
    (h : givesBack s t p g before marks) :
    Turns s t g.handle.entry
      (if g.kind = .adopted then orphanedEntry (s.entry g.handle.entry) p s.orphanTicks
       else lostEntry (s.entry g.handle.entry) p) before := by
  unfold givesBack at h
  split_ifs at h ⊢
  · exact turns_of_becomes h
  · exact turns_of_losesHolding h

theorem State.setEntry_turns (s : State) (e : EntryId) (x : Entry) : Turns s (s.setEntry e x) e x s.port :=
  turns_of_becomes (s.setEntry_becomes e x)

theorem Turns.slots {s t : State} {e : EntryId} {x : Entry} {before : Port → PortRec} (h : Turns s t e x before) (q : Port)
    (k : SlotNo) : t.slot q k = (before q).slots.look k := by
  obtain ⟨m, hm⟩ := h.ports q
  rw [State.slot, hm]; rfl

theorem Turns.queue {s t : State} {e : EntryId} {x : Entry} {before : Port → PortRec} (h : Turns s t e x before) :
    t.waitQueue = s.waitQueue := by rw [h.frame]

theorem Turns.memPort {s t : State} {e : EntryId} {x : Entry} {before : Port → PortRec} (h : Turns s t e x before) :
    t.memPort = s.memPort := by rw [h.frame]

/-- A port of the old state, with its slots alone replaced. -/
abbrev SlotsBut (r r' : PortRec) : Prop := ∃ sl, r' = { r with slots := sl }

/-! ## What an entry counts as when it leaves, loses a holder or becomes an orphan -/

/-- The entry's range, mode and contest go on while it stays in use. -/
abbrev StillAs (x y : Entry) : Prop :=
  y.state ≠ .free → x.state ≠ .free ∧ y.generation = x.generation ∧ y.mode = x.mode ∧ y.range = x.range ∧
    y.contested = x.contested ∧ y.countsAs = x.countsAs

theorem countsAs_mode {x : Entry} (ho : x.state = .orphaned → x.mode = .exclusive) : x.countsAs = x.mode := by
  unfold Entry.countsAs
  split_ifs with h
  · exact (ho h).symm
  · rfl

theorem stillAs_leftEntry {x : Entry} (hu : x.state ≠ .free) (ho : x.state = .orphaned → x.mode = .exclusive) :
    StillAs x (leftEntry x) := by
  intro hl
  unfold leftEntry at hl ⊢
  split_ifs at hl ⊢ with hf
  · exact absurd rfl hl
  · exact ⟨hu, rfl, rfl, rfl, rfl, by rw [countsAs_mode ho]; rfl⟩

theorem stillAs_of_alike {x y : Entry} (h : EntryAlike x y) (hc : y.contested = x.contested) : StillAs x y := fun hy =>
  ⟨h.state ▸ hy, h.generation, h.mode, h.range, hc, h.countsAs⟩

theorem leftEntry_holdings (x : Entry) : (leftEntry x).holdings = [] := by
  unfold leftEntry; split_ifs <;> rfl

theorem leftEntry_holdingOf (x : Entry) (p : Port) : (leftEntry x).holdingOf p = none := by
  simp [Entry.holdingOf, leftEntry_holdings]

/-- Where a port's holding is lost, its own is found no more and every other as before. -/
theorem lostEntry_holdingOf (x : Entry) (p q : Port) : (lostEntry x p).holdingOf q = if q = p then none else x.holdingOf q := by
  unfold lostEntry
  split_ifs with hn hq hq
  · exact leftEntry_holdingOf x q
  · rw [leftEntry_holdingOf]
    have := Entry.holdingOf_heldByOthers (x := x) (y := { x with holdings := heldByOthers x p }) rfl q
    rw [if_neg hq] at this
    rw [← this]
    simp [Entry.holdingOf, hn]
  all_goals
    rw [Entry.holdingOf_heldByOthers (x := x) (p := p) rfl]
    simp [hq]

theorem lostEntry_holdingState (x : Entry) (p q : Port) :
    (lostEntry x p).holdingState q = if q = p then none else x.holdingState q := by
  unfold Entry.holdingState
  rw [lostEntry_holdingOf]
  split_ifs <;> rfl

theorem heldByOthers_sublist (x : Entry) (p : Port) : (heldByOthers x p).Sublist x.holdings := List.filter_sublist

theorem entryShape_lostEntry {x : Entry} (p : Port) (hx : EntryShape x) (hl : x.state = .live) : EntryShape (lostEntry x p) := by
  unfold lostEntry
  split_ifs with hn
  · exact entryShape_leftEntry x
  · exact entryShape_of_live hl hn ((entryShape_rise hx).sublist ((heldByOthers_sublist x p).map _))
      fun hm => ((heldByOthers_sublist x p).length_le).trans (entryShape_exclusive hx hm)

theorem stillAs_lostEntry {x : Entry} (p : Port) (hl : x.state = .live) : StillAs x (lostEntry x p) := by
  unfold lostEntry
  split_ifs with hn
  · exact stillAs_leftEntry (by simp [hl]) (by simp [hl])
  · exact fun _ => ⟨by simp [hl], rfl, rfl, rfl, rfl, rfl⟩

theorem stillAs_orphanedEntry {x : Entry} (p : Port) (n : BitVec 16) (hu : x.state ≠ .free) (hm : x.mode = .exclusive) :
    StillAs x (orphanedEntry x p n) := fun _ =>
  ⟨hu, rfl, rfl, rfl, rfl, by rw [countsAs_mode (x := x) fun _ => hm, hm]; rfl⟩

/-! ## When an event at an entry only takes away -/

/-- Of an event that changes no slot: AWARDED holdings stay exactly where they were. -/
theorem wanes_of_slots {s t : State} {e : EntryId} (hs : TableLaw s) (ho : othersKept s t e) (hq : t.waitQueue = s.waitQueue)
    (hst : ∀ q, (t.port q).state = (s.port q).state) (hsl : ∀ q k, t.slot q k = s.slot q k)
    (hshape : EntryShape (t.entry e)) (hstill : StillAs (s.entry e) (t.entry e))
    (hhold : ∀ q, (s.entry e).holdingOf q = none → (t.entry e).holdingOf q = none)
    (ha : ∀ q, (t.entry e).holdingState q = some .awarded ↔ (s.entry e).holdingState q = some .awarded) : Wanes s t e where
  others := ho
  queue := hq
  states := hst
  slots q k := .inl (hsl q k)
  shape := hshape
  still := hstill
  holders := hhold
  awarded q hq := ⟨(ha q).1 hq, hsl q⟩
  ended q hn k := by
    rw [hsl]
    by_contra hc
    exact hn ((ha q).2 (hs.awarded_of_names (by simpa using hc)))

section
variable {s t : State} {e : EntryId} {x : Entry}

theorem Turns.states (h : Turns s t e x s.port) (q : Port) : (t.port q).state = (s.port q).state := by
  obtain ⟨m, hm⟩ := h.ports q
  rw [hm]; rfl

/-- The entry goes on alike, with its contest. -/
theorem Turns.wanes_of_alike (h : Turns s t e x s.port) (hs : TableLaw s) (ha : EntryAlike (s.entry e) x)
    (hc : x.contested = (s.entry e).contested) : Wanes s t e := by
  refine wanes_of_slots hs h.others h.queue h.states h.slots ?_ ?_ ?_ ?_ <;> rw [h.entry]
  · exact ha.shape (hs.shape e)
  · exact stillAs_of_alike ha hc
  · exact fun q => (ha.holdingOf_eq_none q).2
  · exact ha.awarded

/-- The entry is left with no holder, and none of those it had was AWARDED. -/
theorem Turns.wanes_of_left (h : Turns s t e (leftEntry (s.entry e)) s.port) (hs : TableLaw s)
    (hu : (s.entry e).state ≠ .free) (hn : ∀ q, (s.entry e).holdingState q ≠ some .awarded) : Wanes s t e := by
  refine wanes_of_slots hs h.others h.queue h.states h.slots ?_ ?_ ?_ ?_ <;> rw [h.entry]
  · exact entryShape_leftEntry _
  · exact stillAs_leftEntry hu (hs.exclusive e)
  · exact fun q _ => leftEntry_holdingOf _ q
  · refine fun q => ⟨fun hq => ?_, fun hq => absurd hq (hn q)⟩
    rw [Entry.holdingState_eq_none.2 (leftEntry_holdingOf _ q)] at hq; cases hq

/-- One port's holding is gone that was not AWARDED. -/
theorem Turns.wanes_of_lost {p : Port} (h : Turns s t e (lostEntry (s.entry e) p) s.port) (hs : TableLaw s)
    (hp : (s.entry e).holdingOf p ≠ none) (hn : (s.entry e).holdingState p ≠ some .awarded) : Wanes s t e := by
  have hl : (s.entry e).state = .live := by
    by_contra hc
    exact hp (entryShape_holdingOf_of_state (hs.shape e) hc p)
  refine wanes_of_slots hs h.others h.queue h.states h.slots ?_ ?_ ?_ ?_ <;> rw [h.entry]
  · exact entryShape_lostEntry p (hs.shape e) hl
  · exact stillAs_lostEntry p hl
  · intro q hq
    rw [lostEntry_holdingOf, hq, ite_self]
  · intro q
    rw [lostEntry_holdingState]
    split_ifs with hqp
    · simpa [hqp] using hn
    · rfl

/-- The entry becomes an orphan of its one holder, which was not AWARDED. -/
theorem Turns.wanes_of_orphaned {p : Port} {n : BitVec 16} (h : Turns s t e (orphanedEntry (s.entry e) p n) s.port)
    (hs : TableLaw s) (hm : (s.entry e).mode = .exclusive) (hp : (s.entry e).holdingOf p ≠ none)
    (hn : (s.entry e).holdingState p ≠ some .awarded) : Wanes s t e := by
  have hl : (s.entry e).state ≠ .free := fun hc =>
    hp (entryShape_holdingOf_of_state (hs.shape e) (by simp [hc]) p)
  refine wanes_of_slots hs h.others h.queue h.states h.slots ?_ ?_ ?_ ?_ <;> rw [h.entry]
  · exact entryShape_orphanedEntry _ _ _
  · exact stillAs_orphanedEntry p n hl hm
  · exact fun q _ => rfl
  · refine fun q => ⟨fun hq => by simp [Entry.holdingState, Entry.holdingOf, orphanedEntry] at hq, fun hq => ?_⟩
    obtain ⟨g, hg, rfl⟩ := entryShape_holdings_of_exclusive (hs.shape e) hm hp
    obtain ⟨g', hg', rfl, -⟩ := (Entry.holdingState_eq_some (entryShape_rise (hs.shape e))).1 hq
    rw [hg, List.mem_singleton] at hg'
    exact absurd (hg' ▸ hq) hn

end

/-! ## A lease tick on an entry (R74, R76, R81, R82, R147) -/

/-- An AWARDED holding is found in what a tick leaves. -/
theorem mem_afterTick_of_awarded {s : State} {x : Entry} {h : Holding} (hm : h ∈ x.holdings) (ha : h.state = .awarded) :
    h ∈ afterTick s x :=
  List.mem_filterMap.2 ⟨h, hm, Holding.tick_awarded _ _ ha⟩

theorem afterTick_ports_sublist (s : State) (x : Entry) :
    ((afterTick s x).map Holding.port).Sublist (x.holdings.map Holding.port) :=
  filterMap_ports_sublist (fun _ _ h => (Holding.tick_some h).1) x.holdings

/-- A tick on a LIVE entry that keeps some holder. -/
theorem wanes_afterTick {s t : State} {e : EntryId}
    (h : Turns s t e { s.entry e with tickDue := false, holdings := afterTick s (s.entry e) } s.port) (hs : TableLaw s)
    (hl : (s.entry e).state = .live) (hn : afterTick s (s.entry e) ≠ []) : Wanes s t e := by
  have hx := hs.shape e
  have hsub := afterTick_ports_sublist s (s.entry e)
  have hrise : portsRise (afterTick s (s.entry e)) := (entryShape_rise hx).sublist hsub
  refine wanes_of_slots hs h.others h.queue h.states h.slots ?_ ?_ ?_ ?_ <;> rw [h.entry]
  · exact entryShape_of_live hl hn hrise fun hm => by
      have hle := hsub.length_le
      simp only [List.length_map] at hle
      exact hle.trans (entryShape_exclusive hx hm)
  · exact fun _ => ⟨by simp [hl], rfl, rfl, rfl, rfl, rfl⟩
  · intro q hq
    rw [Entry.holdingOf_eq_none] at hq ⊢
    exact fun hc => hq (hsub.subset hc)
  · intro q
    rw [Entry.holdingState_eq_some (x := { s.entry e with tickDue := false, holdings := afterTick s (s.entry e) }) hrise,
      Entry.holdingState_eq_some (entryShape_rise hx)]
    constructor
    · rintro ⟨h', hm, rfl, ha⟩
      obtain ⟨h0, hm0, ht⟩ := List.mem_filterMap.1 hm
      obtain ⟨hp, hst⟩ := Holding.tick_some ht
      exact ⟨h0, hm0, hp.symm, hst.1 ha⟩
    · rintro ⟨h0, hm0, hp, ha⟩
      exact ⟨h0, mem_afterTick_of_awarded hm0 ha, hp, ha⟩

/-- An entry whose waiting tick or counter alone differs is alike, if it is not FREE or has its shape. -/
theorem entryAlike_tick {x : Entry} (hx : EntryShape x) {o : Option OrphanRecord} (ho : o.isSome = x.orphan.isSome) :
    EntryAlike x { x with tickDue := false, orphan := o } := by
  refine entryAlike_of_map id (fun h _ => by simp) (by simp) rfl rfl rfl rfl rfl ho fun hf => ?_
  have hfree := hx.1 hf
  have ho' : x.orphan = none := by rw [hfree]; rfl
  rw [ho', Option.isSome_none, Option.isSome_eq_false_iff, Option.isNone_iff_eq_none] at ho
  subst ho
  rw [hfree]
  rfl

/-- What a lease tick's event makes of an entry: its counter falls or nothing is counted; its holdings are what the tick
leaves of them; or its last holder or its record is gone. -/
inductive Ticked (s : State) (x : Entry) : Entry → Prop
  | counted (o : Option OrphanRecord) (ho : o.isSome = x.orphan.isSome) : Ticked s x { x with tickDue := false, orphan := o }
  | live (hl : x.state = .live) (hn : ¬(x.holdings ≠ [] ∧ afterTick s x = [])) :
      Ticked s x { x with tickDue := false, holdings := afterTick s x }
  | emptied (hl : x.state = .live) (hn : afterTick s x = []) : Ticked s x (leftEntry x)
  | expired (ho : x.state = .orphaned) : Ticked s x (leftEntry x)

theorem State.tickEntry_turns (s : State) (e : EntryId) :
    ∃ x, Turns s (s.tickEntry e) e x s.port ∧ Ticked s (s.entry e) x := by
  have ht := s.tickEntry_takes e
  have hset : ∀ o : Option OrphanRecord, o.isSome = (s.entry e).orphan.isSome →
      s.tickEntry e = s.setEntry e { s.entry e with tickDue := false, orphan := o } →
      ∃ x, Turns s (s.tickEntry e) e x s.port ∧ Ticked s (s.entry e) x :=
    fun o ho h => ⟨_, h ▸ s.setEntry_turns e _, .counted o ho⟩
  unfold tickTakenAt at ht
  dsimp only at ht
  split at ht
  · exact hset _ rfl ht
  · exact hset _ rfl ht
  · next hl =>
    split_ifs at ht with hc
    · exact ⟨_, turns_of_leaves ht, .emptied hl hc.2⟩
    · exact ⟨_, turns_of_becomes ht, .live hl hc⟩
  · next horph =>
    split at ht
    · exact hset _ rfl ht
    · next o ho =>
      split_ifs at ht
      · exact ⟨_, turns_of_leaves ht, .expired horph⟩
      all_goals exact hset _ (by simp [ho]) ht

theorem State.tickEntry_wanes {s : State} (hs : TableLaw s) (e : EntryId) : Wanes s (s.tickEntry e) e := by
  obtain ⟨x, ht, hx⟩ := s.tickEntry_turns e
  cases hx with
  | counted o ho => exact ht.wanes_of_alike hs (entryAlike_tick (hs.shape e) ho) rfl
  | live hl hc => exact wanes_afterTick ht hs hl fun hn => hc ⟨(hs.shape e).2.1.1 hl, hn⟩
  | emptied hl hn =>
    refine ht.wanes_of_left hs (by simp [hl]) fun q hq => ?_
    obtain ⟨h, hm, -, ha⟩ := (Entry.holdingState_eq_some (entryShape_rise (hs.shape e))).1 hq
    have := mem_afterTick_of_awarded (s := s) hm ha
    rw [hn] at this
    cases this
  | expired ho =>
    refine ht.wanes_of_left hs (by simp [ho]) fun q hq => ?_
    rw [entryShape_live_of_holdingState (hs.shape e) hq] at ho
    cases ho

end Sys2Proof.Machine
end

section
/-! SUPPORT. The events at one entry, listed: the event of a tick, the end of a holding, the giving back and the collecting of a
grant, the supervisor's recall, revocation and retirement, and the close of a port. -/

namespace Sys2Proof.Machine

/-! ## Grants given back, collected and revoked: the slot is emptied -/

/-- A slot's grant is done with, and its port's holding is no longer AWARDED; the other ports' stay as they are. -/
theorem wanes_of_slot_emptied {s t : State} {p : Port} {k : SlotNo} {d : Descriptor} {g : Grant} {x : Entry}
    (hs : TableLaw s) (hg : s.slot p k = .granted d g)
    (h : Turns s t g.handle.entry x (portsBut s p (withSlot (s.port p) k .empty)))
    (hshape : EntryShape x) (hstill : StillAs (s.entry g.handle.entry) x)
    (hhold : ∀ q, (s.entry g.handle.entry).holdingOf q = none → x.holdingOf q = none)
    (ha : ∀ q, x.holdingState q = some .awarded ↔ q ≠ p ∧ (s.entry g.handle.entry).holdingState q = some .awarded) :
    Wanes s t g.handle.entry := by
  have hsl : ∀ q j, t.slot q j = if q = p ∧ j = k then .empty else s.slot q j := fun q j => by
    rw [h.slots, ← State.setPort_port, ← State.setSlot_eq, ← State.setSlot_slot]; rfl
  have hn : grantNames (s.slot p k) g.handle.entry = true := by simp [hg]
  refine { others := h.others, queue := h.queue, states := fun q => ?_, slots := fun q j => ?_, shape := h.entry ▸ hshape,
           still := by rw [h.entry]; exact hstill, holders := by rw [h.entry]; exact hhold, awarded := ?_, ended := ?_ }
  · obtain ⟨m, hm⟩ := h.ports q
    rw [hm, flagsSet_state, ← State.setPort_port]
    by_cases hq : q = p
    · subst hq; simp [withSlot]
    · simp [hq]
  · rw [hsl]
    split_ifs with hc
    · obtain ⟨rfl, rfl⟩ := hc; exact .inr ⟨hn, rfl⟩
    · exact .inl rfl
  · rw [h.entry]
    intro q hq
    obtain ⟨hqp, hq⟩ := (ha q).1 hq
    exact ⟨hq, fun j => by rw [hsl, if_neg fun hc => hqp hc.1]⟩
  · rw [h.entry]
    intro q hq j
    rw [hsl]
    split_ifs with hc
    · rfl
    · by_contra hj
      have hj : grantNames (s.slot q j) g.handle.entry = true := by simpa using hj
      have hqp : q = p := by
        by_contra hqp
        exact hq ((ha q).2 ⟨hqp, hs.awarded_of_names hj⟩)
      subst hqp
      exact hc ⟨rfl, hs.names_unique hj hn⟩

/-- The giving back of a grant by cancellation, withdrawal or lapse (R66, R67). -/
theorem State.giveBack_wanes {s : State} (hs : TableLaw s) {p : Port} {k : SlotNo} {d : Descriptor} {g : Grant}
    (hg : s.slot p k = .granted d g) : Wanes s (s.giveBack p k g) g.handle.entry := by
  have ht := turns_of_givesBack (s.giveBack_gives p k g)
  obtain ⟨hl, -, ha, -, hx⟩ := grantHasHolding_iff.1 hs.grants p k d g hg
  have hshape := hs.shape g.handle.entry
  split_ifs at ht with hk
  · have hne : (s.entry g.handle.entry).holdingOf p ≠ none := by
      rw [ne_eq, ← Entry.holdingState_eq_none, ha]; simp
    obtain ⟨h1, h1s, h1p⟩ := entryShape_holdings_of_exclusive hshape (hx hk) hne
    refine wanes_of_slot_emptied hs hg ht (entryShape_orphanedEntry _ _ _)
      (stillAs_orphanedEntry p _ (by simp [hl]) (hx hk)) (fun _ _ => rfl) fun q => ⟨fun hq => ?_, fun ⟨hqp, hq⟩ => ?_⟩
    · simp [Entry.holdingState, Entry.holdingOf, orphanedEntry] at hq
    · obtain ⟨h2, hm, rfl, -⟩ := (Entry.holdingState_eq_some (entryShape_rise hshape)).1 hq
      rw [h1s, List.mem_singleton] at hm
      exact absurd (hm ▸ h1p) hqp
  · refine wanes_of_slot_emptied hs hg ht (entryShape_lostEntry p hshape hl) (stillAs_lostEntry p hl) (fun q hq => ?_)
      fun q => ?_
    · rw [lostEntry_holdingOf, hq, ite_self]
    · rw [lostEntry_holdingState]
      split_ifs with hq <;> simp [hq]

/-- An entry after the collecting of a port's grant (R60). -/
def collectedEntry (x : Entry) (p : Port) (kind : GrantKind) : Entry :=
  { x with
      holdings := x.holdings.map fun h => if h.port = p then
        (if h.state = .awarded then { h with state := .held } else h) else h
      orphan := if kind = .adopted then none else x.orphan }

theorem State.collectGrant_eq (s : State) (p : Port) (k : SlotNo) (g : Grant) :
    s.collectGrant p k g =
      (s.setEntry g.handle.entry (collectedEntry (s.entry g.handle.entry) p g.kind)).setPort p
        (withSlot (s.port p) k .empty) := by
  unfold State.collectGrant
  rw [State.modEntry_eq, State.setSlot_eq]
  have hx : ∀ x : Entry, (let y := x.modHolding p fun h => if h.state = .awarded then { h with state := .held } else h
      if g.kind = .adopted then { y with orphan := none } else y) = collectedEntry x p g.kind := by
    intro x
    by_cases hk : g.kind = .adopted <;> simp [collectedEntry, Entry.modHolding, hk]
  rw [hx]; rfl

theorem State.collectGrant_turns (s : State) (p : Port) (k : SlotNo) (g : Grant) :
    Turns s (s.collectGrant p k g) g.handle.entry (collectedEntry (s.entry g.handle.entry) p g.kind)
      (portsBut s p (withSlot (s.port p) k .empty)) := by
  rw [State.collectGrant_eq]
  refine ⟨rfl, fun f hf => s.setEntry_entry_ne _ hf, s.setEntry_entry_self _ _, fun q => ⟨0, ?_⟩⟩
  exact (State.setPort_port _ p q _).trans (flagsSet_zero _).symm

/-- The collecting of a grant (R60). -/
theorem State.collectGrant_wanes {s : State} (hs : TableLaw s) {p : Port} {k : SlotNo} {d : Descriptor} {g : Grant}
    (hg : s.slot p k = .granted d g) : Wanes s (s.collectGrant p k g) g.handle.entry := by
  obtain ⟨hl, -, ha, -, hx⟩ := grantHasHolding_iff.1 hs.grants p k d g hg
  obtain ⟨-, hlive, hexcl, hrise, -⟩ := hs.shape g.handle.entry
  have hfind := Entry.holdingOf_map (x := s.entry g.handle.entry)
    (y := collectedEntry (s.entry g.handle.entry) p g.kind) _ (fun h => by split_ifs <;> rfl) rfl
  refine wanes_of_slot_emptied hs hg (s.collectGrant_turns p k g) (entryShape_of_live hl ?_ ?_ ?_)
    (fun _ => ⟨by simp [hl], rfl, rfl, rfl, rfl, rfl⟩) (fun q hq => by rw [hfind, hq]; rfl) fun q => ?_
  · simpa [collectedEntry] using hlive.1 hl
  · have hp : (collectedEntry (s.entry g.handle.entry) p g.kind).holdings.map Holding.port =
        (s.entry g.handle.entry).holdings.map Holding.port := by
      simp only [collectedEntry, List.map_map]
      exact List.map_congr_left fun h _ => by simp only [Function.comp_apply]; split_ifs <;> rfl
    unfold portsRise; rw [hp]; exact hrise
  · simpa [collectedEntry] using hexcl
  · unfold Entry.holdingState
    rw [hfind]
    cases hq : (s.entry g.handle.entry).holdingOf q with
    | none => simp
    | some h =>
      have hp : h.port = q := ((Entry.holdingOf_eq_some hrise).1 hq).2
      by_cases hqp : q = p
      · subst hqp
        by_cases hst : h.state = .awarded <;> simp [hp, hst]
      · simp [hp, hqp]

/-- A port with the slots emptied whose grants name an entry (R142). -/
def grantsEmptied (r : PortRec) (e : EntryId) : PortRec :=
  { r with slots := r.slots.map fun k => if grantNames k e = true then .empty else k }

theorem grantsEmptied_look (r : PortRec) (e : EntryId) (k : SlotNo) :
    (grantsEmptied r e).slots.look k = if grantNames (r.slots.look k) e = true then .empty else r.slots.look k := by
  unfold grantsEmptied Table.look
  rw [Vector.get_eq_getElem, Vector.getElem_map]
  rfl

/-- One slot emptied with its port's LAPSE notice, if its grant names the entry (R68, R142). -/
def State.emptySlotOf (s : State) (e : EntryId) (c : ClaimId) : State :=
  if grantNames (s.slot c.port c.slot) e = true then (s.setSlot c.port c.slot .empty).setNotice c.port .lapse else s

theorem State.emptyGrants_eq (s : State) (e : EntryId) :
    s.emptyGrants e = allClaims.foldl (fun s c => s.emptySlotOf e c) s := by
  unfold State.emptyGrants
  congr
  funext s c
  unfold State.emptySlotOf
  cases s.slot c.port c.slot <;> simp

theorem State.emptySlotOf_frame (s : State) (e : EntryId) (c : ClaimId) :
    s.emptySlotOf e c = { s with ports := (s.emptySlotOf e c).ports } := by
  unfold State.emptySlotOf
  split_ifs
  · rw [State.setNotice_eq, State.setSlot_eq]; rfl
  · rfl

theorem State.emptySlotOf_slot (s : State) (e : EntryId) (c : ClaimId) (q : Port) (k : SlotNo) :
    (s.emptySlotOf e c).slot q k = if ⟨q, k⟩ = c ∧ grantNames (s.slot q k) e = true then .empty else s.slot q k := by
  obtain ⟨p, j⟩ := c
  have hset := s.setSlot_slot p q j k .empty
  unfold State.emptySlotOf
  by_cases hn : grantNames (s.slot p j) e = true
  · rw [if_pos hn, State.slot, State.setNotice_port, flagsSet_slot]
    refine hset.trans ?_
    by_cases hc : q = p ∧ k = j
    · obtain ⟨rfl, rfl⟩ := hc; simp [hn]
    · rw [if_neg hc, if_neg]
      rintro ⟨hc', -⟩
      exact hc (by simpa using hc')
  · rw [if_neg hn, if_neg]
    rintro ⟨hc, hn'⟩
    cases hc
    exact hn hn'

theorem State.emptySlotOf_port (s : State) (e : EntryId) (c : ClaimId) (q : Port) :
    ∃ sl, (s.emptySlotOf e c).port q = flagsSet { s.port q with slots := sl }
      (if q = c.port ∧ grantNames (s.slot c.port c.slot) e = true then 0x02 else 0) := by
  unfold State.emptySlotOf
  by_cases hn : grantNames (s.slot c.port c.slot) e = true
  · rw [if_pos hn, State.setNotice_port, State.setSlot_eq]
    by_cases hq : q = c.port
    · subst hq
      rw [State.setPort_port_self, if_pos ⟨rfl, hn⟩]
      exact ⟨_, by rw [markAt, if_pos rfl]; rfl⟩
    · exact ⟨(s.port q).slots, by simp [hq, markAt]⟩
  · exact ⟨(s.port q).slots, by simp [hn]⟩

/-- The emptying of the slots of a list whose grants name an entry. -/
theorem emptySlotsOf (e : EntryId) (l : List ClaimId) (s : State) :
    let t := l.foldl (fun s c => s.emptySlotOf e c) s
    t = { s with ports := t.ports } ∧
    (∀ q k, t.slot q k = if ⟨q, k⟩ ∈ l ∧ grantNames (s.slot q k) e = true then .empty else s.slot q k) ∧
    ∀ q, ∃ sl, t.port q = flagsSet { s.port q with slots := sl }
      (if ∃ k, ⟨q, k⟩ ∈ l ∧ grantNames (s.slot q k) e = true then 0x02 else 0) := by
  induction l generalizing s with
  | nil => exact ⟨rfl, fun _ _ => by simp, fun q => ⟨(s.port q).slots, by simp⟩⟩
  | cons c l ih =>
    obtain ⟨tf, tsl, tp⟩ := ih (s.emptySlotOf e c)
    simp only [List.foldl_cons]
    have hnames : ∀ q k, grantNames ((s.emptySlotOf e c).slot q k) e = true ↔
        ⟨q, k⟩ ≠ c ∧ grantNames (s.slot q k) e = true := by
      intro q k
      rw [State.emptySlotOf_slot]
      split_ifs with hc
      · simp [hc.1]
      · tauto
    refine ⟨by rw [tf, State.emptySlotOf_frame], fun q k => ?_, fun q => ?_⟩
    · rw [tsl, State.emptySlotOf_slot]
      by_cases h1 : (⟨q, k⟩ : ClaimId) = c <;> by_cases h2 : grantNames (s.slot q k) e = true <;> simp [h1, h2]
    · obtain ⟨sl, hsl⟩ := tp q
      obtain ⟨sl', hsl'⟩ := s.emptySlotOf_port e c q
      refine ⟨sl, ?_⟩
      have hflag : ∀ m m' : BitVec 8, flagsSet { flagsSet { s.port q with slots := sl' } m with slots := sl } m' =
          flagsSet { s.port q with slots := sl } (m ||| m') := fun m m' => by
        rw [← flagsSet_flagsSet]; rfl
      rw [hsl, hsl', hflag]
      congr 1
      simp only [hnames]
      by_cases h1 : q = c.port ∧ grantNames (s.slot c.port c.slot) e = true
      · have h2 : ∃ k, (⟨q, k⟩ : ClaimId) ∈ c :: l ∧ grantNames (s.slot q k) e = true :=
          ⟨c.slot, by simp [h1.1], by rw [h1.1]; exact h1.2⟩
        rw [if_pos h1, if_pos h2]
        split_ifs <;> rfl
      · rw [if_neg h1]
        refine (BitVec.zero_or).trans (if_congr (exists_congr fun k => ?_) rfl rfl)
        by_cases hkc : (⟨q, k⟩ : ClaimId) = c
        · subst hkc
          have hn : ¬grantNames (s.slot q k) e = true := fun hn => h1 ⟨rfl, hn⟩
          simp [hn]
        · simp [hkc]

/-- The slots whose grants name an entry are emptied, each with its port's LAPSE notice, and nothing else differs (R142). -/
theorem State.emptyGrants_port (s : State) (e : EntryId) (q : Port) :
    (s.emptyGrants e).port q =
      flagsSet (grantsEmptied (s.port q) e) (if ∃ k, grantNames (s.slot q k) e = true then 0x02 else 0) := by
  obtain ⟨-, hsl, hp⟩ := emptySlotsOf e allClaims s
  obtain ⟨sl, hq⟩ := hp q
  rw [State.emptyGrants_eq, hq]
  simp only [mem_allClaims, true_and] at hsl ⊢
  have hslots : sl = (grantsEmptied (s.port q) e).slots := by
    ext k
    have := hsl q k
    rw [State.slot, hq] at this
    rw [grantsEmptied_look]
    exact this
  rw [hslots]
  rfl

theorem State.emptyGrants_frame (s : State) (e : EntryId) : s.emptyGrants e = { s with ports := (s.emptyGrants e).ports } :=
  s.emptyGrants_eq e ▸ (emptySlotsOf e allClaims s).1

/-- An entry's holders and the grants that name it are taken away, and the entry leaves (R142). -/
def State.dissolve (s : State) (e : EntryId) : State :=
  ((s.emptyGrants e).modEntry e fun x => { x with holdings := [], orphan := none }).leave e

theorem State.vacated_leaves (s : State) (e : EntryId) :
    leaves s ((s.modEntry e fun x => { x with holdings := [], orphan := none }).leave e) e s.port noMarks :=
  leaves_of_entry (x := { s.entry e with holdings := [], orphan := none }) rfl rfl (State.leave_leaves _ e)

theorem State.dissolve_leaves (s : State) (e : EntryId) : leaves s (s.dissolve e) e (s.emptyGrants e).port noMarks := by
  have hf := s.emptyGrants_frame e
  unfold State.dissolve
  generalize s.emptyGrants e = u at hf ⊢
  exact leaves_of_ports u.port hf (fun _ => rfl) (u.vacated_leaves e)

theorem State.dissolve_turns (s : State) (e : EntryId) :
    Turns s (s.dissolve e) e (leftEntry (s.entry e)) fun q => grantsEmptied (s.port q) e := by
  obtain ⟨hf, ho, he, hp⟩ := turns_of_leaves (s.dissolve_leaves e)
  refine ⟨hf, ho, he, fun q => ?_⟩
  obtain ⟨m, hm⟩ := hp q
  rw [hm, s.emptyGrants_port, flagsSet_flagsSet]
  exact ⟨_, rfl⟩

/-- The revocation of a LIVE entry (R142). -/
theorem State.dissolve_wanes {s : State} {e : EntryId} (hl : (s.entry e).state = .live) :
    Wanes s (s.dissolve e) e := by
  have h := s.dissolve_turns e
  refine { others := h.others, queue := h.queue, states := fun q => ?_, slots := fun q k => ?_,
           shape := h.entry ▸ entryShape_leftEntry _, still := by rw [h.entry]; exact stillAs_leftEntry (by simp [hl]) (by simp [hl])
           holders := fun q _ => by rw [h.entry]; exact leftEntry_holdingOf _ q, awarded := fun q hq => ?_, ended := fun q _ k => ?_ }
  · obtain ⟨m, hm⟩ := h.ports q
    rw [hm]; rfl
  · rw [h.slots, grantsEmptied_look]
    split_ifs with hn
    · exact .inr ⟨hn, rfl⟩
    · exact .inl rfl
  · rw [h.entry, Entry.holdingState_eq_none.2 (leftEntry_holdingOf _ q)] at hq; cases hq
  · rw [h.slots, grantsEmptied_look]
    split_ifs with hn
    · rfl
    · simpa using hn

end Sys2Proof.Machine
end

section
/-! SUPPORT. The events at one entry in one list, with what they leave of in-flight counts and of the ports. -/

namespace Sys2Proof.Machine

/-- What happens at one entry that grants nothing: each with what its operation asks of the state. -/
inductive LeaseEvent (s : State) : State → EntryId → Prop
  /-- A lease tick is handed to the entry and waits there (R116). -/
  | handed (e : EntryId) (h : (s.entry e).counted = true) : LeaseEvent s (s.modEntry e fun x => { x with tickDue := true }) e
  /-- A lease tick takes its event (R74, R76, R81, R82, R147). -/
  | ticked (e : EntryId) : LeaseEvent s (s.tickEntry e) e
  /-- A collected holding is released (R86). -/
  | released (e : EntryId) (p : Port) (hp : (s.entry e).holdingState p ≠ none)
      (ha : (s.entry e).holdingState p ≠ some .awarded) : LeaseEvent s (s.removeHolding e p) e
  /-- A holding over or within its term is renewed (R87). -/
  | renewed (e : EntryId) (p : Port) (term : BitVec 16) (hp : (s.entry e).holdingState p ≠ none)
      (ha : (s.entry e).holdingState p ≠ some .awarded) :
      LeaseEvent s (s.modEntry e fun x => x.modHolding p fun g => g.renew term) e
  /-- The supervisor recalls the collected holdings (R80). -/
  | recalled (e : EntryId) (hl : (s.entry e).state = .live) : LeaseEvent s (s.forceRecall e) e
  /-- A grant is given back (R66, R67). -/
  | givenBack (p : Port) (k : SlotNo) (d : Descriptor) (g : Grant) (h : s.slot p k = .granted d g) :
      LeaseEvent s (s.giveBack p k g) g.handle.entry
  /-- A grant is collected (R60). -/
  | collected (p : Port) (k : SlotNo) (d : Descriptor) (g : Grant) (h : s.slot p k = .granted d g) :
      LeaseEvent s (s.collectGrant p k g) g.handle.entry
  /-- The fourth stage of the close of a port deals with its holding (R129, R130). -/
  | vacated (e : EntryId) (p : Port) (hst : s.closeStage p = some .fourth) (hp : (s.entry e).holdingState p ≠ none) :
      LeaseEvent s (s.vacateEntry p e) e
  /-- The supervisor revokes a lease (R142). -/
  | revoked (e : EntryId) (hl : (s.entry e).state = .live) : LeaseEvent s (s.dissolve e) e
  /-- The supervisor retires an orphan (R146). -/
  | retired (e : EntryId) (ho : (s.entry e).state = .orphaned) : LeaseEvent s (s.leave e) e

/-! ## What each leaves of its entry -/

theorem State.handed_turns (s : State) (e : EntryId) :
    Turns s (s.modEntry e fun x => { x with tickDue := true }) e { s.entry e with tickDue := true } s.port :=
  s.setEntry_turns e _

theorem State.renewed_turns (s : State) (e : EntryId) (p : Port) (term : BitVec 16) :
    Turns s (s.modEntry e fun x => x.modHolding p fun g => g.renew term) e
      ((s.entry e).modHolding p fun g => g.renew term) s.port := s.setEntry_turns e _

/-- What the fourth stage of a close makes of an entry with a holding of the port (Table 30). -/
theorem State.vacateEntry_turns (s : State) (p : Port) (e : EntryId) (hp : (s.entry e).holdingState p ≠ none) :
    Turns s (s.vacateEntry p e) e
      (if (s.entry e).mode = .exclusive ∧ ((s.entry e).holdingState p = some .held ∨ (s.entry e).holdingState p = some .overdue)
       then orphanedEntry (s.entry e) p s.orphanTicks else lostEntry (s.entry e) p) s.port := by
  unfold State.vacateEntry
  cases hst : (s.entry e).holdingState p with
  | none => exact absurd hst hp
  | some st =>
    simp only [Option.some.injEq]
    split_ifs
    · exact turns_of_becomes (s.makeOrphan_becomes e p)
    · exact turns_of_losesHolding (s.removeHolding_loses e p)

theorem leftEntry_inFlight (x : Entry) : (leftEntry x).inFlight = x.inFlight := by
  unfold leftEntry
  split_ifs with h
  · exact h.symm
  · rfl

/-- The in-flight count stays, and an entry that becomes FREE has none (R17, R18). -/
abbrev FlightStays (x y : Entry) : Prop := y.inFlight = x.inFlight ∧ (y.state = .free → x.state ≠ .free → y.inFlight = 0)

theorem flightStays_of_state {x y : Entry} (hi : y.inFlight = x.inFlight) (hs : y.state = x.state) : FlightStays x y :=
  ⟨hi, fun hf hn => absurd (hs ▸ hf) hn⟩

theorem flightStays_leftEntry (x : Entry) : FlightStays x (leftEntry x) := by
  refine ⟨leftEntry_inFlight x, fun hf _ => ?_⟩
  unfold leftEntry at hf ⊢
  split_ifs at hf ⊢
  · rfl
  · cases hf

theorem flightStays_lostEntry (x : Entry) (p : Port) : FlightStays x (lostEntry x p) := by
  unfold lostEntry
  split_ifs
  · exact flightStays_leftEntry x
  · exact flightStays_of_state rfl rfl

theorem flightStays_orphanedEntry (x : Entry) (p : Port) (n : BitVec 16) : FlightStays x (orphanedEntry x p n) :=
  ⟨rfl, fun hf => by cases hf⟩

theorem slotsBut_portsBut (s : State) (p : Port) (k : SlotNo) (x : Slot) (q : Port) :
    SlotsBut (s.port q) (portsBut s p (withSlot (s.port p) k x) q) := by
  unfold portsBut
  split_ifs with hq
  · subst hq; exact ⟨_, rfl⟩
  · exact ⟨_, rfl⟩

/-- Every event at one entry turns it into some entry whose in-flight count is the old one; of the ports it touches slots
and notices alone. -/
theorem LeaseEvent.turns {s t : State} {e : EntryId} (h : LeaseEvent s t e) : ∃ x before, Turns s t e x before ∧
    (∀ q, SlotsBut (s.port q) (before q)) ∧ FlightStays (s.entry e) x := by
  have same : ∀ q, SlotsBut (s.port q) (s.port q) := fun q => ⟨_, rfl⟩
  cases h with
  | handed e _ => exact ⟨_, _, s.handed_turns e, same, flightStays_of_state rfl rfl⟩
  | ticked e =>
    obtain ⟨x, ht, hx⟩ := s.tickEntry_turns e
    refine ⟨x, _, ht, same, ?_⟩
    cases hx with
    | counted o _ => exact flightStays_of_state rfl rfl
    | live _ _ => exact flightStays_of_state rfl rfl
    | emptied _ _ => exact flightStays_leftEntry _
    | expired _ => exact flightStays_leftEntry _
  | released e p _ _ => exact ⟨_, _, turns_of_losesHolding (s.removeHolding_loses e p), same, flightStays_lostEntry _ p⟩
  | renewed e p term _ _ => exact ⟨_, _, s.renewed_turns e p term, same, flightStays_of_state rfl rfl⟩
  | recalled e _ => exact ⟨_, _, turns_of_becomes (s.forceRecall_becomes e), same, flightStays_of_state rfl rfl⟩
  | givenBack p k d g _ =>
    refine ⟨_, _, turns_of_givesBack (s.giveBack_gives p k g), slotsBut_portsBut s p k _, ?_⟩
    split_ifs
    · exact flightStays_orphanedEntry _ _ _
    · exact flightStays_lostEntry _ _
  | collected p k d g _ =>
    exact ⟨_, _, s.collectGrant_turns p k g, slotsBut_portsBut s p k _, flightStays_of_state rfl rfl⟩
  | vacated e p _ hp =>
    refine ⟨_, _, s.vacateEntry_turns p e hp, same, ?_⟩
    split_ifs
    · exact flightStays_orphanedEntry _ _ _
    · exact flightStays_lostEntry _ _
  | revoked e _ => exact ⟨_, _, s.dissolve_turns e, fun q => ⟨_, rfl⟩, flightStays_leftEntry _⟩
  | retired e _ => exact ⟨_, _, turns_of_leaves (s.leave_leaves e), same, flightStays_leftEntry _⟩

/-! ## Each only takes away -/

/-- A holding that is not AWARDED is renewed in place. -/
theorem entryAlike_renewed {x : Entry} {p : Port} (term : BitVec 16) (hx : EntryShape x) (hp : x.holdingState p ≠ none)
    (ha : x.holdingState p ≠ some .awarded) : EntryAlike x (x.modHolding p fun g => g.renew term) := by
  refine entryAlike_of_map _ (fun h hm => ?_) rfl rfl rfl rfl rfl rfl rfl fun hf => ?_
  · split_ifs with hport
    · have hst : ¬h.state = .awarded := fun hst =>
        ha ((Entry.holdingState_eq_some (entryShape_rise hx)).2 ⟨h, hm, hport, hst⟩)
      simp [Holding.renew, hst]
    · simp
  · exact absurd (Entry.holdingState_eq_none.2 (entryShape_holdingOf_of_state hx (by simp [hf]) p)) hp

theorem entryAlike_recalled {x : Entry} (grace : BitVec 8) (hl : x.state = .live) :
    EntryAlike x { x with holdings := x.holdings.map fun h => if h.collected then h.recall grace true else h } := by
  refine entryAlike_of_map _ (fun h _ => ?_) rfl rfl rfl rfl rfl rfl rfl fun hf => by simp [hl] at hf
  split_ifs with hc
  · have hst : h.state ≠ .awarded := by simpa [Holding.collected] using hc
    simp [Holding.recall, hst]
  · simp

theorem entryAlike_handed {x : Entry} (hc : x.counted = true) : EntryAlike x { x with tickDue := true } := by
  refine entryAlike_of_map id (fun h _ => by simp) (by simp) rfl rfl rfl rfl rfl rfl fun hf => ?_
  simp [Entry.counted, hf] at hc

/-- A port whose close has reached the fourth stage has no AWARDED holding, since its slots are empty (R128). -/
theorem TableLaw.not_awarded_of_vacant {s : State} (hs : TableLaw s) {p : Port} (hv : (s.port p).state.vacant = true)
    (e : EntryId) : (s.entry e).holdingState p ≠ some .awarded := by
  intro ha
  obtain ⟨k, hk, -⟩ := hs.holdings e p ha
  simp [hs.vacant p hv k] at hk

theorem vacant_of_closeStage {s : State} {p : Port} (h : s.closeStage p = some .fourth) :
    (s.port p).state.vacant = true := by
  unfold State.closeStage at h
  cases hst : (s.port p).state <;> simp_all [PortState.vacant]

/-- Every event at one entry only takes away. -/
theorem LeaseEvent.wanes {s t : State} {e : EntryId} (h : LeaseEvent s t e) (hs : TableLaw s) : Wanes s t e := by
  cases h with
  | handed e hc => exact (s.handed_turns e).wanes_of_alike hs (entryAlike_handed hc) rfl
  | ticked e => exact State.tickEntry_wanes hs e
  | released e p hp ha =>
    exact (turns_of_losesHolding (s.removeHolding_loses e p)).wanes_of_lost hs
      (fun hc => hp (Entry.holdingState_eq_none.2 hc)) ha
  | renewed e p term hp ha =>
    exact (s.renewed_turns e p term).wanes_of_alike hs (entryAlike_renewed term (hs.shape e) hp ha) rfl
  | recalled e hl =>
    exact (turns_of_becomes (s.forceRecall_becomes e)).wanes_of_alike hs (entryAlike_recalled _ hl) rfl
  | givenBack p k d g hg => exact State.giveBack_wanes hs hg
  | collected p k d g hg => exact State.collectGrant_wanes hs hg
  | vacated e p hst hp =>
    have ha := hs.not_awarded_of_vacant (vacant_of_closeStage hst) e
    have hp' : (s.entry e).holdingOf p ≠ none := fun hc => hp (Entry.holdingState_eq_none.2 hc)
    have ht := s.vacateEntry_turns p e hp
    split_ifs at ht with hx
    · exact ht.wanes_of_orphaned hs hx.1 hp' ha
    · exact ht.wanes_of_lost hs hp' ha
  | revoked e hl => exact State.dissolve_wanes hl
  | retired e ho =>
    refine (turns_of_leaves (s.leave_leaves e)).wanes_of_left hs (by simp [ho]) fun q hq => ?_
    rw [entryShape_live_of_holdingState (hs.shape e) hq] at ho
    cases ho

end Sys2Proof.Machine
end

section
/-! SUPPORT. The events of claims: a grant, an adoption, a claim that begins to wait and one that is withdrawn. -/

namespace Sys2Proof.Machine

/-! ## Ports of which slots and notices alone differ -/

/-- Of every port, slots and notices alone differ. -/
abbrev PortsMarked (s t : State) : Prop := ∀ q, ∃ sl m, t.port q = flagsSet { s.port q with slots := sl } m

theorem PortsMarked.trans {s t u : State} (h : PortsMarked s t) (h' : PortsMarked t u) : PortsMarked s u := by
  intro q
  obtain ⟨sl, m, hq⟩ := h q
  obtain ⟨sl', m', hq'⟩ := h' q
  refine ⟨sl', m ||| m', ?_⟩
  rw [hq', hq, ← flagsSet_flagsSet]
  rfl

theorem PortsMarked.refl (s : State) : PortsMarked s s := fun q => ⟨(s.port q).slots, 0, (flagsSet_zero _).symm⟩

theorem portsMarked_setSlot (s : State) (p : Port) (k : SlotNo) (x : Slot) : PortsMarked s (s.setSlot p k x) := by
  intro q
  by_cases hq : q = p
  · subst hq
    exact ⟨(s.port q).slots.put k x, 0#8, by rw [State.setSlot_eq, State.setPort_port_self, flagsSet_zero]; rfl⟩
  · exact ⟨(s.port q).slots, 0#8, by rw [State.setSlot_eq, State.setPort_port_ne _ _ hq, flagsSet_zero]⟩

theorem PortsMarked.state {s t : State} (h : PortsMarked s t) (q : Port) : (t.port q).state = (s.port q).state := by
  obtain ⟨sl, m, hq⟩ := h q
  rw [hq]; rfl

/-- The port after a slot of it is replaced and notices are set, and nothing else. -/
theorem slot_of_port {s t : State} {p : Port} {k : SlotNo} {x : Slot} {m : BitVec 8}
    (h : ∀ q, t.port q = portsBut s p (flagsSet (withSlot (s.port p) k x) m) q) (q : Port) (j : SlotNo) :
    t.slot q j = if q = p ∧ j = k then x else s.slot q j := by
  rw [State.slot, h, ← s.setSlot_slot p q k j x, State.setSlot_eq, State.slot]
  by_cases hq : q = p
  · subst hq; simp [portsBut]
  · simp [portsBut, hq]

/-! ## The grant (R8, R13, R44, R51 to R55) -/

theorem nextGeneration_ne_zero (g : BitVec 8) : nextGeneration g ≠ 0 := by
  unfold nextGeneration
  split_ifs with h
  · decide
  · intro hc; apply h; bv_omega

/-- The grant that a claim receives (R51, R52). -/
def grantFor (s : State) (p : Port) (d : Descriptor) (h : Handle) (kind : GrantKind) : Grant :=
  { handle := h, kind := kind, term := ((s.termsOf p).resolve d.term).1, clamped := ((s.termsOf p).resolve d.term).2,
    collect := s.collectTicks, tickDue := false }

/-- The state in which an entry has become `y` and a slot `x`, with the GRANT notice, and the claim has left the queue. -/
def State.granted (s : State) (e : EntryId) (y : Entry) (p : Port) (k : SlotNo) (x : Slot) : State :=
  { (s.setEntry e y).setPort p (flagsSet (withSlot (s.port p) k x) 0x01) with waitQueue := s.waitQueue.erase ⟨p, k⟩ }

section
variable (s : State) (e : EntryId) (y : Entry) (p : Port) (k : SlotNo) (x : Slot)

theorem State.granted_entry (f : EntryId) : (s.granted e y p k x).entry f = if f = e then y else s.entry f :=
  s.setEntry_entry e f y

@[simp] theorem State.granted_entry_self : (s.granted e y p k x).entry e = y := s.setEntry_entry_self e y

theorem State.granted_port (q : Port) :
    (s.granted e y p k x).port q = portsBut s p (flagsSet (withSlot (s.port p) k x) 0x01) q := s.setPort_port p q _

theorem State.granted_marks : PortsMarked s (s.granted e y p k x) := by
  intro q
  rw [State.granted_port]
  by_cases hq : q = p
  · subst hq; exact ⟨(s.port q).slots.put k x, 0x01, by rw [portsBut, if_pos rfl]; rfl⟩
  · exact ⟨(s.port q).slots, 0#8, by rw [portsBut, if_neg hq, flagsSet_zero]⟩

theorem State.granted_slot (q : Port) (j : SlotNo) :
    (s.granted e y p k x).slot q j = if q = p ∧ j = k then x else s.slot q j :=
  slot_of_port (State.granted_port s e y p k x) q j

end

/-- The entry that a claim of the port has joined (R44, R51). -/
def joinedEntry (s : State) (p : Port) (d : Descriptor) (e : EntryId) : Entry :=
  { s.entry e with
      holdings := insertHolding (Holding.award p ((s.termsOf p).resolve d.term).1) (s.entry e).holdings }

/-- A grant by joining (R44, R51). -/
theorem State.grantClaim_join {s : State} {p : Port} {d : Descriptor} {e : EntryId} (k : SlotNo)
    (h : s.joinTarget p d = some e) :
    s.grantClaim p k d = s.granted e (joinedEntry s p d e) p k
      (.granted d (grantFor s p d ⟨e, (s.entry e).generation⟩ .joined)) := by
  unfold State.grantClaim
  simp only [h, State.award_eq]
  rfl

/-- A grant by allocation (R13, R51, R55). -/
theorem State.grantClaim_new {s : State} {p : Port} {d : Descriptor} {e : EntryId} (k : SlotNo)
    (hj : s.joinTarget p d = none) (h : s.lowestFree = some e) :
    s.grantClaim p k d = s.granted e ((s.entry e).allocated p d ((s.termsOf p).resolve d.term).1
        (claimConflict (s.claims (s.waitQueue.erase ⟨p, k⟩)) d)) p k
      (.granted d (grantFor s p d ⟨e, nextGeneration (s.entry e).generation⟩ .new)) := by
  unfold State.grantClaim
  simp only [hj, h, State.award_eq]
  rfl

/-- A slot that is granted its claim: one whose claim waits, or one of an OPEN port whose claim has just arrived. -/
abbrev MayGain (s : State) (p : Port) (k : SlotNo) (d : Descriptor) : Prop :=
  s.slot p k = .waiting d ∨ (s.slot p k = .empty ∧ s.overlapsOwn p d.range = false ∧ (s.port p).state = .opened)

theorem MayGain.asked {s : State} {p : Port} {k : SlotNo} {d : Descriptor} (h : MayGain s p k d) :
    s.slot p k = .waiting d ∨ (s.slot p k = .empty ∧ s.overlapsOwn p d.range = false) := by
  rcases h with hw | ⟨he, ho, -⟩
  · exact .inl hw
  · exact .inr ⟨he, ho⟩

theorem MayGain.serving {s : State} {p : Port} {k : SlotNo} {d : Descriptor} (h : MayGain s p k d) (hs : TableLaw s) :
    (s.port p).state.vacant = false := by
  rcases h with hw | ⟨-, -, ho⟩
  · by_contra hv
    rw [hs.vacant p (by simpa using hv) k] at hw
    cases hw
  · simp [ho, PortState.vacant]

/-- A claim that conflicts with no entry gains its grant by joining. -/
theorem gains_join {s : State} (hs : TableLaw s) {p : Port} {k : SlotNo} {d : Descriptor} {e : EntryId}
    (ha : MayGain s p k d) (hfree : ∀ f, (s.entry f).conflicts d = false) (hj : s.joinTarget p d = some e) :
    ∃ g, Gains s (s.grantClaim p k d) p k d g := by
  obtain ⟨-, hlive, hmode, hrange, hnone⟩ := s.joinTarget_some hj
  obtain ⟨-, -, -, hrise, -⟩ := hs.shape e
  rw [State.grantClaim_join k hj]
  refine ⟨grantFor s p d ⟨e, (s.entry e).generation⟩ .joined, ?_⟩
  exact {
    others := fun f hf => (State.granted_entry ..).trans (if_neg hf)
    queue := .inl rfl
    states := PortsMarked.state (s.granted_marks e _ p k _)
    slots := s.granted_slot e _ p k _
    asked := ha.asked
    serving := ha.serving hs
    free := fun _ => hfree
    shape := by
      refine (State.granted_entry_self ..).symm ▸ entryShape_of_live hlive (insertHolding_ne_nil _ _)
        (insertHolding_rise hrise (Entry.holdingOf_eq_none.1 hnone)) fun hm => ?_
      cases hmode.symm.trans hm
    live := (congrArg Entry.state (State.granted_entry_self ..)).trans hlive
    generation := ⟨(congrArg Entry.generation (s.granted_entry_self e _ p k _)).trans rfl, hs.named e (by simp [hlive])⟩
    range := (congrArg Entry.range (State.granted_entry_self ..)).trans hrange
    adopted := fun hk => by cases hk
    newcomer := hnone
    holding := fun q => by
      refine (congrArg (Entry.holdingState · q) (State.granted_entry_self ..)).trans ?_
      unfold Entry.holdingState
      rw [Entry.holdingOf_insertHolding (x := s.entry e) rfl hnone]
      by_cases hq : q = p
      · simp [Holding.award, hq]
      · simp [Holding.award, grantFor, hq]
    entry := .inl ⟨by simp [grantFor, hlive], (congrArg Entry.range (s.granted_entry_self e _ p k _)).trans rfl,
      (congrArg Entry.generation (s.granted_entry_self e _ p k _)).trans rfl, (congrArg Entry.contested (s.granted_entry_self e _ p k _)).trans rfl,
      (congrArg Entry.countsAs (s.granted_entry_self e _ p k _)).trans rfl⟩ }

/-- A claim that conflicts with no entry and has none to join gains its grant in a FREE one. -/
theorem gains_new {s : State} (hs : TableLaw s) {p : Port} {k : SlotNo} {d : Descriptor} {e : EntryId}
    (ha : MayGain s p k d) (hfree : ∀ f, (s.entry f).conflicts d = false) (hj : s.joinTarget p d = none)
    (hf : s.lowestFree = some e) : ∃ g, Gains s (s.grantClaim p k d) p k d g := by
  have hx := s.lowestFree_some hf
  have hnone := entryShape_holdingOf_of_state (hs.shape e) (by simp [hx])
  rw [State.grantClaim_new k hj hf]
  refine ⟨grantFor s p d ⟨e, nextGeneration (s.entry e).generation⟩ .new, ?_⟩
  exact {
    others := fun f hfe => (State.granted_entry ..).trans (if_neg hfe)
    queue := .inl rfl
    states := PortsMarked.state (s.granted_marks e _ p k _)
    slots := s.granted_slot e _ p k _
    asked := ha.asked
    serving := ha.serving hs
    free := fun _ => hfree
    shape := (State.granted_entry_self ..).symm ▸ entryShape_of_live rfl (List.cons_ne_nil _ _) (by simp [Entry.allocated, portsRise])
      (by simp [Entry.allocated])
    live := congrArg Entry.state (State.granted_entry_self ..)
    generation := ⟨(congrArg Entry.generation (s.granted_entry_self e _ p k _)).trans rfl, nextGeneration_ne_zero _⟩
    range := congrArg Entry.range (State.granted_entry_self ..)
    adopted := fun hk => by cases hk
    newcomer := hnone p
    holding := fun q => by
      refine (congrArg (Entry.holdingState · q) (State.granted_entry_self ..)).trans ?_
      simp only [grantFor]
      rw [Entry.holdingState_eq_none.2 (hnone q)]
      by_cases hq : q = p
      · subst hq; simp [Entry.holdingState, Entry.holdingOf, Entry.allocated, Holding.award]
      · simp [Entry.holdingState, Entry.holdingOf, Entry.allocated, Holding.award, hq, Ne.symm hq]
    entry := .inr ⟨hx, hfree, congrArg Entry.mode (State.granted_entry_self ..),
      congrArg Entry.contested (State.granted_entry_self ..)⟩ }

/-- A grant touches of the ports slots and notices alone, and nothing but entries, ports and the queue. -/
theorem State.grantClaim_marks (s : State) (p : Port) (k : SlotNo) (d : Descriptor) :
    PortsMarked s (s.grantClaim p k d) ∧ s.grantClaim p k d =
      { s with entries := (s.grantClaim p k d).entries, ports := (s.grantClaim p k d).ports,
               waitQueue := (s.grantClaim p k d).waitQueue } := by
  cases hj : s.joinTarget p d with
  | some e =>
    rw [State.grantClaim_join k hj]
    exact ⟨s.granted_marks e _ p k _, rfl⟩
  | none =>
    cases hf : s.lowestFree with
    | some e =>
      rw [State.grantClaim_new k hj hf]
      exact ⟨s.granted_marks e _ p k _, rfl⟩
    | none =>
      have hid : s.grantClaim p k d = s := by unfold State.grantClaim; simp only [hj, hf]
      rw [hid]
      exact ⟨PortsMarked.refl s, rfl⟩

/-- A grantable claim is granted: the slot gains some grant. -/
theorem State.grantClaim_gains {s : State} (hs : TableLaw s) {p : Port} {k : SlotNo} {d : Descriptor}
    (ha : MayGain s p k d) (hc : ∀ f, (s.entry f).conflicts d = false)
    (hr : (s.joinTarget p d).isSome = true ∨ s.lowestFree.isSome = true) : ∃ g, Gains s (s.grantClaim p k d) p k d g := by
  cases hj : s.joinTarget p d with
  | some e => exact gains_join hs ha hc hj
  | none =>
    cases hf : s.lowestFree with
    | some e => exact gains_new hs ha hc hj hf
    | none => simp [hj, hf] at hr

/-! ## The adoption (R145) -/

/-- A completion keeps every entry. -/
@[simp] theorem State.complete_entry (s : State) (code : BitVec 4) (r : CmdResult) (e : EntryId) :
    (s.complete code r).entry e = s.entry e := by rw [State.complete_eq]; rfl

/-- A completion sets P0's COMMAND notice and touches the ports no further. -/
theorem State.complete_port (s : State) (code : BitVec 4) (r : CmdResult) (q : Port) :
    (s.complete code r).port q = flagsSet (s.port q) (markAt 0 0x20 q) := by
  unfold State.complete
  rw [State.setNotice_port]
  rfl

@[simp] theorem State.complete_slot (s : State) (code : BitVec 4) (r : CmdResult) (q : Port) (k : SlotNo) :
    (s.complete code r).slot q k = s.slot q k := by
  rw [State.slot, State.complete_port]; rfl

theorem State.complete_marks (s : State) (code : BitVec 4) (r : CmdResult) : PortsMarked s (s.complete code r) := fun q =>
  ⟨(s.port q).slots, _, s.complete_port code r q⟩

/-- The grant of an adopted orphan (R145). -/
def adoptedGrant (s : State) (h : Handle) (p : Port) : Grant :=
  { handle := h, kind := .adopted, term := ((s.termsOf p).resolve 0).1, clamped := ((s.termsOf p).resolve 0).2,
    collect := s.collectTicks, tickDue := false }

/-- The entry of an adopted orphan (R145). -/
def adoptedEntry (s : State) (h : Handle) (p : Port) : Entry :=
  { s.entry h.entry with state := .live, holdings := [Holding.award p ((s.termsOf p).resolve 0).1] }

/-- The claim that an adoption writes into the slot (R38, R145; notes/assumptions/25.md). -/
def adoptedClaim (s : State) (h : Handle) : Descriptor :=
  { range := (s.entry h.entry).range, mode := .exclusive, noWait := false, term := 0 }

theorem State.adopt_eq (s : State) (h : Handle) (p : Port) (k : SlotNo) :
    s.adopt h p k =
      ((s.setEntry h.entry (adoptedEntry s h p)).setPort p
        (flagsSet (withSlot (s.port p) k (.granted (adoptedClaim s h) (adoptedGrant s h p))) 0x01)).complete
        Cmd.adoptLease .ok := by
  unfold State.adopt
  simp only [State.setNotice_eq, State.setSlot_eq, State.setPort_setPort, State.setPort_port_self, State.modEntry_eq,
    State.setEntry_port]
  rfl

theorem State.adopt_entry (s : State) (h : Handle) (p : Port) (k : SlotNo) (f : EntryId) :
    (s.adopt h p k).entry f = if f = h.entry then adoptedEntry s h p else s.entry f := by
  rw [State.adopt_eq, State.complete_entry]
  exact s.setEntry_entry h.entry f _

theorem State.adopt_slot (s : State) (h : Handle) (p : Port) (k : SlotNo) (q : Port) (j : SlotNo) :
    (s.adopt h p k).slot q j =
      if q = p ∧ j = k then .granted (adoptedClaim s h) (adoptedGrant s h p) else s.slot q j := by
  rw [State.adopt_eq, State.complete_slot]
  exact slot_of_port (s := s) (fun q => State.setPort_port _ p q _) q j

/-- An adoption touches of the ports slots and notices alone, and nothing but entries, ports and the engine. -/
theorem State.adopt_marks (s : State) (h : Handle) (p : Port) (k : SlotNo) :
    PortsMarked s (s.adopt h p k) ∧ (s.adopt h p k).waitQueue = s.waitQueue ∧ (s.adopt h p k).memPort = s.memPort := by
  rw [State.adopt_eq]
  refine ⟨PortsMarked.trans (fun q => ?_) (State.complete_marks _ _ _), ?_, ?_⟩
  · by_cases hq : q = p
    · subst hq
      exact ⟨(s.port q).slots.put k _, 0x01, State.setPort_port_self ..⟩
    · exact ⟨(s.port q).slots, 0#8, (State.setPort_port_ne _ _ hq).trans (flagsSet_zero _).symm⟩
  · rw [State.complete_eq]; rfl
  · rw [State.complete_eq]; rfl

/-- An orphan adopted: the slot gains its grant. -/
theorem State.adopt_gains {s : State} (hs : TableLaw s) {h : Handle} {p : Port} {k : SlotNo}
    (hg : (s.entry h.entry).generation = h.generation) (ho : (s.entry h.entry).state = .orphaned)
    (hp : (s.port p).state = .opened) (hk : s.slot p k = .empty)
    (hr : s.overlapsOwn p (s.entry h.entry).range = false) :
    Gains s (s.adopt h p k) p k (adoptedClaim s h) (adoptedGrant s h p) := by
  have hm := hs.exclusive h.entry ho
  have hself : (s.adopt h p k).entry h.entry = adoptedEntry s h p := (s.adopt_entry h p k h.entry).trans (if_pos rfl)
  have hnone := entryShape_holdingOf_of_state (hs.shape h.entry) (by simp [ho])
  obtain ⟨hmarks, hqueue, -⟩ := s.adopt_marks h p k
  exact {
    others := fun f hf => (s.adopt_entry h p k f).trans (if_neg hf)
    queue := .inr ⟨hk, hqueue⟩
    states := PortsMarked.state hmarks
    slots := s.adopt_slot h p k
    asked := .inr ⟨hk, hr⟩
    serving := by simp [hp, PortState.vacant]
    free := fun hc => by rw [hk] at hc; cases hc
    shape := hself.symm ▸ entryShape_of_live rfl (List.cons_ne_nil _ _) (by simp [adoptedEntry, portsRise])
      (by simp [adoptedEntry])
    live := congrArg Entry.state hself
    generation := ⟨(congrArg Entry.generation hself).trans hg, hg ▸ hs.named h.entry (by simp [ho])⟩
    range := (congrArg Entry.range hself).trans rfl
    adopted := fun _ => (congrArg Entry.mode hself).trans hm
    newcomer := hnone p
    holding := fun q => by
      refine (congrArg (Entry.holdingState · q) hself).trans ?_
      simp only [adoptedGrant]
      rw [Entry.holdingState_eq_none.2 (hnone q)]
      by_cases hq : q = p
      · subst hq; simp [Entry.holdingState, Entry.holdingOf, adoptedEntry, Holding.award]
      · simp [Entry.holdingState, Entry.holdingOf, adoptedEntry, Holding.award, hq, Ne.symm hq]
    entry := .inl ⟨by simp [adoptedGrant, ho], (congrArg Entry.range hself).trans rfl, (congrArg Entry.generation hself).trans rfl,
      (congrArg Entry.contested hself).trans rfl, by
        refine (congrArg Entry.countsAs hself).trans ?_
        simp [adoptedEntry, adoptedGrant, Entry.countsAs, ho, hm]⟩ }

/-! ## Claims that begin to wait, and that are withdrawn (R34, R40, R55, R56) -/

/-- An operation applied to each of some entries, each of which it changes by a function of the entry alone. -/
theorem foldl_entries {R : State → State → Prop} {op : State → EntryId → State} {f : Entry → Entry} {s : State}
    (hop : ∀ u e, R s u → R s (op u e) ∧ (op u e).entry e = f (u.entry e) ∧ othersKept u (op u e) e)
    (l : List EntryId) (hl : l.Nodup) (u : State) (hu : R s u) :
    R s (l.foldl op u) ∧ ∀ e, (l.foldl op u).entry e = if e ∈ l then f (u.entry e) else u.entry e := by
  induction l generalizing u with
  | nil => exact ⟨hu, fun e => by simp⟩
  | cons e l ih =>
    obtain ⟨hn, hl⟩ := List.nodup_cons.1 hl
    obtain ⟨hr, he, ho⟩ := hop u e hu
    obtain ⟨ht, hte⟩ := ih hl (op u e) hr
    refine ⟨ht, fun g => ?_⟩
    rw [List.foldl_cons, hte]
    by_cases hg : g = e
    · subst hg; simp [hn, he]
    · simp [hg, ho g hg]

/-- An operation applied to every entry. -/
theorem foldl_allEntries {R : State → State → Prop} {op : State → EntryId → State} {f : Entry → Entry} {s : State}
    (hop : ∀ u e, R s u → R s (op u e) ∧ (op u e).entry e = f (u.entry e) ∧ othersKept u (op u e) e) (hs : R s s) :
    R s (allEntries.foldl op s) ∧ ∀ e, (allEntries.foldl op s).entry e = f (s.entry e) := by
  obtain ⟨h1, h2⟩ := foldl_entries hop allEntries (List.nodup_finRange 64) s hs
  exact ⟨h1, fun e => (h2 e).trans (if_pos (List.mem_finRange e))⟩

/-- Nothing but entries and the slots and notices of ports differs. -/
structure EntriesOnly (s t : State) : Prop where
  frame : t = { s with entries := t.entries, ports := t.ports }
  slots : ∀ q k, t.slot q k = s.slot q k
  marks : PortsMarked s t

theorem EntriesOnly.refl (s : State) : EntriesOnly s s := ⟨rfl, fun _ _ => rfl, PortsMarked.refl s⟩

theorem entriesOnly_of_becomes {s u t : State} {e : EntryId} {x : Entry} {marks : Port → BitVec 8} (hu : EntriesOnly s u)
    (h : becomes u t e x u.port marks) : EntriesOnly s t := by
  obtain ⟨hf, -, -, hv, he, hr, hp⟩ := h
  refine ⟨?_, fun q k => ?_, hu.marks.trans fun q => ⟨(u.port q).slots, _, hp q⟩⟩
  · rw [hf, hv, he, hr, hu.frame]
  · rw [State.slot, hp, flagsSet_slot]; exact hu.slots q k

theorem EntriesOnly.claims {s t : State} (h : EntriesOnly s t) : t.claims t.waitQueue = s.claims s.waitQueue := by
  rw [claims_congr fun c _ => State.claimAt_of_slot (h.slots c.port c.slot), h.frame]

/-- An entry once a claim that conflicts with it has begun to wait (R55). -/
def contestedBy (d : Descriptor) (grace : BitVec 8) (x : Entry) : Entry :=
  if x.conflicts d = true ∧ x.contested = false then contestedEntry grace x else x

/-- An entry once a claim is gone from the queue, which leaves the claims `rest` (R56). -/
def uncontestedBy (d : Descriptor) (rest : List Descriptor) (x : Entry) : Entry :=
  if x.conflicts d = true ∧ rest.any (fun c => x.conflicts c) = false then uncontestedEntry x else x

/-- What a new claim contests (R55). -/
theorem State.contest_entries (s : State) (d : Descriptor) :
    EntriesOnly s (s.contest d) ∧ ∀ e, (s.contest d).entry e = contestedBy d s.graceTicks (s.entry e) := by
  refine foldl_allEntries (fun u e hu => ?_) (EntriesOnly.refl s)
  simp only [Bool.and_eq_true, Bool.not_eq_true', contestedBy]
  split_ifs with hc
  · have hb := u.reportContested_becomes e fun hf => by simp [entry_conflicts_free hf] at hc
    refine ⟨entriesOnly_of_becomes hu hb, ?_, hb.2.1⟩
    rw [hb.2.2.1, hu.frame]
  · exact ⟨hu, rfl, fun _ _ => rfl⟩

/-- What a claim that has left contests no more (R56). -/
theorem State.uncontest_entries (s : State) (d : Descriptor) :
    EntriesOnly s (s.uncontest d) ∧ ∀ e, (s.uncontest d).entry e = uncontestedBy d (s.claims s.waitQueue) (s.entry e) := by
  refine foldl_allEntries (fun u e hu => ?_) (EntriesOnly.refl s)
  simp only [Bool.and_eq_true, Bool.not_eq_true', uncontestedBy, hu.claims]
  split_ifs with hc
  · rw [State.reportUncontested_eq]
    have hb := u.setEntry_becomes e (uncontestedEntry (u.entry e))
    exact ⟨entriesOnly_of_becomes hu hb, hb.2.2.1, hb.2.1⟩
  · exact ⟨hu, rfl, fun _ _ => rfl⟩

/-- The state in which a slot is replaced and the queue is another. -/
def State.queued (s : State) (p : Port) (k : SlotNo) (x : Slot) (q : List ClaimId) : State :=
  ({ s with waitQueue := q } : State).setSlot p k x

theorem State.queued_slot (s : State) (p : Port) (k : SlotNo) (x : Slot) (w : List ClaimId) (q : Port) (j : SlotNo) :
    (s.queued p k x w).slot q j = if q = p ∧ j = k then x else s.slot q j :=
  State.setSlot_slot { s with waitQueue := w } p q k j x

theorem State.queued_marks (s : State) (p : Port) (k : SlotNo) (x : Slot) (w : List ClaimId) :
    PortsMarked s (s.queued p k x w) := portsMarked_setSlot { s with waitQueue := w } p k x

/-- A claim begins to wait. -/
theorem State.contest_waits {s : State} {p : Port} {k : SlotNo} {d : Descriptor} (hk : s.slot p k = .empty)
    (hr : s.overlapsOwn p d.range = false) (hp : (s.port p).state = .opened) :
    Waits s ((s.queued p k (.waiting d) (s.waitQueue ++ [⟨p, k⟩])).contest d) p k d := by
  obtain ⟨hu, he⟩ := (s.queued p k (.waiting d) (s.waitQueue ++ [⟨p, k⟩])).contest_entries d
  generalize (s.queued p k (.waiting d) (s.waitQueue ++ [⟨p, k⟩])).contest d = t at hu he ⊢
  exact {
    entry := he
    queue := congrArg State.waitQueue hu.frame
    states := ((s.queued_marks p k _ _).trans hu.marks).state
    slots := fun q j => (hu.slots q j).trans (s.queued_slot p k _ _ q j)
    asked := ⟨hk, hr⟩
    serving := by simp [hp, PortState.vacant] }

/-- The claims of the queue without a place of it, once its slot waits no more. -/
theorem filterMap_erase_of_none {α : Type} (f : ClaimId → Option α) (c : ClaimId) (l : List ClaimId) :
    (l.erase c).filterMap (fun b => if b = c then none else f b) = (l.filter fun b => b != c).filterMap f := by
  have hall : ∀ m : List ClaimId, m.filterMap (fun b => if b = c then none else f b) =
      (m.filter fun b => b != c).filterMap f := by
    intro m
    rw [List.filterMap_filter]
    refine congrFun (congrArg _ (funext fun b => ?_)) m
    by_cases hb : b = c <;> simp [hb]
  induction l with
  | nil => rfl
  | cons b l ih =>
    by_cases hb : b = c
    · subst hb; simpa using hall l
    · rw [List.erase_cons_tail (by simpa using hb), List.filter_cons_of_pos (by simpa using hb), List.filterMap_cons,
        List.filterMap_cons, ih]
      simp [hb]

theorem State.withdraw_eq (s : State) (p : Port) (k : SlotNo) (d : Descriptor) :
    s.withdraw p k d =
      { (s.queued p k .empty (s.waitQueue.erase ⟨p, k⟩)).uncontest d with evalCalled := true } := rfl

theorem State.withdraw_marks (s : State) (p : Port) (k : SlotNo) (d : Descriptor) :
    PortsMarked s (s.withdraw p k d) ∧
    s.withdraw p k d = { s with entries := (s.withdraw p k d).entries, ports := (s.withdraw p k d).ports,
                                waitQueue := s.waitQueue.erase ⟨p, k⟩, evalCalled := true } := by
  obtain ⟨hu, -⟩ := (s.queued p k .empty (s.waitQueue.erase ⟨p, k⟩)).uncontest_entries d
  rw [State.withdraw_eq]
  generalize (s.queued p k .empty (s.waitQueue.erase ⟨p, k⟩)).uncontest d = u at hu ⊢
  exact ⟨(s.queued_marks p k _ _).trans hu.marks, by rw [hu.frame]; rfl⟩

/-- A waiting claim is withdrawn. -/
theorem State.withdraw_withdrawn {s : State} {p : Port} {k : SlotNo} {d : Descriptor} (hk : s.slot p k = .waiting d) :
    Withdrawn s (s.withdraw p k d) p k d := by
  obtain ⟨hu, he⟩ := (s.queued p k .empty (s.waitQueue.erase ⟨p, k⟩)).uncontest_entries d
  have hclaims : (s.queued p k .empty (s.waitQueue.erase ⟨p, k⟩)).claims (s.waitQueue.erase ⟨p, k⟩) =
      s.claims (s.waitQueue.filter fun c => c != ⟨p, k⟩) := by
    rw [State.claims, State.claims, ← filterMap_erase_of_none]
    refine List.filterMap_congr fun c _ => ?_
    obtain ⟨q, j⟩ := c
    simp only [State.claimAt, State.queued_slot, ClaimId.mk.injEq]
    split_ifs <;> rfl
  obtain ⟨hmarks, hframe⟩ := s.withdraw_marks p k d
  rw [State.withdraw_eq] at hmarks hframe ⊢
  generalize (s.queued p k .empty (s.waitQueue.erase ⟨p, k⟩)).uncontest d = t at hu he hmarks hframe ⊢
  exact {
    entry := fun e => by
      rw [← hclaims]
      exact he e
    queue := congrArg State.waitQueue hframe
    states := hmarks.state
    slots := fun q j => (hu.slots q j).trans (s.queued_slot p k _ _ q j)
    asked := hk }

end Sys2Proof.Machine
end

section
/-! SUPPORT. The events that a step is made of, in one list, and what each keeps: the counts in flight, each port's own
record, and the tables. -/

namespace Sys2Proof.Machine

/-! ## Bookkeeping: events that change nothing the tables' laws read -/

/-- The entries, the queue and the bursts stay; each port keeps its claims and grants, and what its record keeps. A port may
come to a state in which it has no slot in use, or no holding, only if that is so. -/
structure Books (s t : State) : Prop where
  entry : ∀ e, t.entry e = s.entry e
  queue : t.waitQueue = s.waitQueue
  memPort : t.memPort = s.memPort
  bursts : ∀ p, (t.port p).writeBuffer = (s.port p).writeBuffer ∧ (t.port p).read = (s.port p).read
  form : ∀ p, PortForm (s.port p) → PortForm (t.port p)
  claim : ∀ c, t.claimAt c = s.claimAt c
  grant : ∀ p k, grantCore (t.slot p k) = grantCore (s.slot p k)
  vacant : ∀ p, (t.port p).state.vacant = true →
    ((s.port p).state.vacant = true ∧ ∀ k, s.slot p k = .empty → t.slot p k = .empty) ∨ ∀ k, t.slot p k = .empty
  gone : ∀ p, (t.port p).state.gone = true → (s.port p).state.gone = true ∨ ∀ e, (s.entry e).holdingOf p = none

theorem Books.recorded {s t : State} (h : Books s t) : Recorded s t where
  entry e := h.entry e ▸ EntryAlike.refl _
  grant := h.grant
  vacant := h.vacant
  gone := h.gone
  same := h.entry
  claim := h.claim
  queue := h.queue

/-- A port keeps its state, its slots and its bursts, and what its record keeps. -/
structure RecKept (r r' : PortRec) : Prop where
  state : r'.state = r.state
  slots : r'.slots = r.slots
  writeBuffer : r'.writeBuffer = r.writeBuffer
  read : r'.read = r.read
  form : PortForm r → PortForm r'

theorem RecKept.refl (r : PortRec) : RecKept r r := ⟨rfl, rfl, rfl, rfl, id⟩

theorem RecKept.trans {r r' r'' : PortRec} (h : RecKept r r') (h' : RecKept r' r'') : RecKept r r'' :=
  ⟨h'.state.trans h.state, h'.slots.trans h.slots, h'.writeBuffer.trans h.writeBuffer, h'.read.trans h.read, h'.form ∘ h.form⟩

theorem portForm_flagsSet {r : PortRec} (m : BitVec 8) (h : PortForm r) : PortForm (flagsSet r m) := by
  by_cases hc : r.state = .closed
  · rwa [flagsSet_closed m hc]
  · exact ⟨h.applied, fun hc' => absurd hc' hc⟩

theorem recKept_flagsSet (r : PortRec) (m : BitVec 8) : RecKept r (flagsSet r m) :=
  ⟨rfl, rfl, rfl, rfl, portForm_flagsSet m⟩

theorem recKept_answered (r : PortRec) (a : Answer) : RecKept r (answered r a) :=
  ⟨rfl, rfl, rfl, rfl, fun h => ⟨h.applied, h.closed⟩⟩

/-- Whatever a port that is not CLOSED keeps beside its holding queue is not asked of it. -/
theorem recKept_of_not_closed {r r' : PortRec} (hc : r.state ≠ .closed) (hs : r'.state = r.state) (hsl : r'.slots = r.slots)
    (hw : r'.writeBuffer = r.writeBuffer) (hr : r'.read = r.read) (hq : r.holdQueue = [] → r'.holdQueue = []) :
    RecKept r r' :=
  ⟨hs, hsl, hw, hr, fun h => ⟨fun ha => hq (h.applied (hs ▸ ha)), fun hc' => absurd (hs ▸ hc') hc⟩⟩

theorem recKept_refusedPort {r : PortRec} (hc : r.state ≠ .closed) (c : RefusalCode) (place : FaultPlace) :
    RecKept r (refusedPort r c place) := recKept_of_not_closed hc rfl rfl rfl rfl id

section
variable {s t : State}

theorem books_of_recs (he : ∀ e, t.entry e = s.entry e) (hq : t.waitQueue = s.waitQueue) (hm : t.memPort = s.memPort)
    (hp : ∀ q, RecKept (s.port q) (t.port q)) : Books s t := by
  have hsl : ∀ p k, t.slot p k = s.slot p k := fun p k => by rw [State.slot, (hp p).slots]; rfl
  exact {
    entry := he
    queue := hq
    memPort := hm
    bursts := fun p => ⟨(hp p).writeBuffer, (hp p).read⟩
    form := fun p => (hp p).form
    claim := fun c => State.claimAt_of_slot (hsl _ _)
    grant := fun p k => by rw [hsl]
    vacant := fun p hv => .inl ⟨(hp p).state ▸ hv, fun k hk => (hsl p k).trans hk⟩
    gone := fun p hg => .inl ((hp p).state ▸ hg) }

/-- An update of fields that no law reads. -/
theorem books_of_fields (he : t.entries = s.entries) (hp : t.ports = s.ports) (hq : t.waitQueue = s.waitQueue)
    (hm : t.memPort = s.memPort) : Books s t :=
  books_of_recs (fun e => by rw [State.entry, he]; rfl) hq hm fun q => by
    rw [show t.port q = s.port q by rw [State.port, hp]; rfl]
    exact RecKept.refl _

theorem books_setPort (s : State) (p : Port) {r : PortRec} (h : RecKept (s.port p) r) : Books s (s.setPort p r) :=
  books_of_recs (fun _ => rfl) rfl rfl fun q => by
    by_cases hq : q = p
    · subst hq; rwa [State.setPort_port_self]
    · rw [State.setPort_port_ne _ _ hq]; exact RecKept.refl _

theorem books_answer (s : State) (p : Port) (a : Answer) : Books s (s.answer p a) :=
  books_setPort s p (recKept_answered _ a)

theorem books_refuse (s : State) {p : Port} (hp : (s.port p).state ≠ .closed) (c : RefusalCode) (place : FaultPlace) :
    Books s (s.refuse p c place) := by
  rw [State.refuse_eq]
  exact books_setPort s p (recKept_refusedPort hp c place)

theorem books_setNotice (s : State) (p : Port) (k : Notice) : Books s (s.setNotice p k) := by
  rw [State.setNotice_eq]
  exact books_setPort s p (recKept_flagsSet _ _)

theorem books_noticeAll (s : State) (ps : List Port) (k : Notice) : Books s (s.noticeAll ps k) := by
  have hf := s.noticeAll_frame ps k
  refine books_of_recs (fun e => by rw [hf]; rfl) (by rw [hf]) (by rw [hf]) fun q => ?_
  rw [State.noticeAll_port]
  exact recKept_flagsSet _ _

theorem books_complete (s : State) (code : BitVec 4) (r : CmdResult) : Books s (s.complete code r) := by
  refine books_of_recs (s.complete_entry code r) (by rw [State.complete_eq]; rfl) (by rw [State.complete_eq]; rfl) fun q => ?_
  rw [State.complete_port]
  exact recKept_flagsSet _ _

/-- What holds of every port after one is replaced: of the new record, and of the others. -/
theorem forall_setPort {s : State} {p : Port} {r : PortRec} {motive : Port → PortRec → Prop} (hp : motive p r)
    (ho : ∀ q, q ≠ p → motive q (s.port q)) (q : Port) : motive q ((s.setPort p r).port q) := by
  by_cases hq : q = p
  · subst hq; rwa [State.setPort_port_self]
  · rw [State.setPort_port_ne _ _ hq]; exact ho q hq

/-- A port comes to another state, with its slots and bursts as they are. -/
theorem books_setPort_state (s : State) (p : Port) {r : PortRec} (hsl : r.slots = (s.port p).slots)
    (hw : r.writeBuffer = (s.port p).writeBuffer) (hr : r.read = (s.port p).read)
    (hf : PortForm (s.port p) → PortForm r)
    (hv : r.state.vacant = true → (s.port p).state.vacant = true ∨ ∀ k, s.slot p k = .empty)
    (hg : r.state.gone = true → (s.port p).state.gone = true ∨ ∀ e, (s.entry e).holdingOf p = none) :
    Books s (s.setPort p r) := by
  have hslots := forall_setPort (motive := fun q r => r.slots = (s.port q).slots) hsl fun _ _ => rfl
  have hslot : ∀ q k, (s.setPort p r).slot q k = s.slot q k := fun q k => by rw [State.slot, hslots]; rfl
  exact {
    entry := fun _ => rfl
    queue := rfl
    memPort := rfl
    bursts := forall_setPort (motive := fun q r => r.writeBuffer = (s.port q).writeBuffer ∧ r.read = (s.port q).read)
      ⟨hw, hr⟩ fun _ _ => ⟨rfl, rfl⟩
    form := forall_setPort (motive := fun q r => PortForm (s.port q) → PortForm r) hf fun _ _ => id
    claim := fun c => State.claimAt_of_slot (hslot _ _)
    grant := fun q k => by rw [hslot]
    vacant := fun q hv' => by
      have := forall_setPort (motive := fun q r => r.state.vacant = true → (s.port q).state.vacant = true ∨ ∀ k, s.slot q k = .empty)
        hv (fun _ _ h => .inl h) q hv'
      exact this.imp (fun h => ⟨h, fun k hk => (hslot q k).trans hk⟩) fun h k => (hslot q k).trans (h k)
    gone := forall_setPort (motive := fun q r => r.state.gone = true → (s.port q).state.gone = true ∨
      ∀ e, (s.entry e).holdingOf q = none) hg fun _ _ h => .inl h }

/-- A slot changes in what the laws do not read of it. -/
theorem books_setSlot (s : State) (p : Port) (k : SlotNo) {x : Slot} (hg : grantCore x = grantCore (s.slot p k))
    (hw : ∀ d, x ≠ .waiting d ∧ s.slot p k ≠ .waiting d)
    (he : s.slot p k = .empty → x ≠ .empty → (s.port p).state = .opened) : Books s (s.setSlot p k x) := by
  have hrec := forall_setPort (s := s) (p := p) (r := withSlot (s.port p) k x)
    (motive := fun q r => r.state = (s.port q).state ∧ r.writeBuffer = (s.port q).writeBuffer ∧ r.read = (s.port q).read ∧
      (PortForm (s.port q) → PortForm r)) ⟨rfl, rfl, rfl, fun h => ⟨h.applied, h.closed⟩⟩ fun _ _ => ⟨rfl, rfl, rfl, id⟩
  rw [← State.setSlot_eq] at hrec
  exact {
    entry := fun _ => rfl
    queue := rfl
    memPort := rfl
    bursts := fun q => by
      obtain ⟨-, hwrites, hread, -⟩ := hrec q
      exact ⟨hwrites, hread⟩
    form := fun q => by
      obtain ⟨-, -, -, hform⟩ := hrec q
      exact hform
    claim := fun c => by
      unfold State.claimAt
      rw [State.setSlot_slot]
      split_ifs with hc
      · rw [hc.1, hc.2]
        have hx := fun d => (hw d).1
        have hs := fun d => (hw d).2
        cases x <;> cases hsl : s.slot p k <;> simp_all
      · rfl
    grant := fun q j => by
      rw [State.setSlot_slot]
      split_ifs with hc
      · rw [hc.1, hc.2, hg]
      · rfl
    vacant := fun q hv => by
      rw [(hrec q).1] at hv
      refine .inl ⟨hv, fun j hj => ?_⟩
      rw [State.setSlot_slot]
      split_ifs with hc
      · obtain ⟨rfl, rfl⟩ := hc
        by_contra hx
        rw [he hj hx] at hv
        cases hv
      · exact hj
    gone := fun q hg' => .inl ((hrec q).1 ▸ hg') }

end

/-! ## The list of events -/

/-- What an event of a step is. Each names the operation with what it asks of the state in which it is taken. -/
inductive Event (s : State) : State → Prop
  | books {t : State} (h : Books s t) : Event s t
  | lease {t : State} {e : EntryId} (h : LeaseEvent s t e) : Event s t
  | granted (p : Port) (k : SlotNo) (d : Descriptor) (ha : MayGain s p k d) (hc : ∀ f, (s.entry f).conflicts d = false)
      (hr : (s.joinTarget p d).isSome = true ∨ s.lowestFree.isSome = true) : Event s (s.grantClaim p k d)
  | adopted (h : Handle) (p : Port) (k : SlotNo) (hg : (s.entry h.entry).generation = h.generation)
      (ho : (s.entry h.entry).state = .orphaned) (hp : (s.port p).state = .opened) (hk : s.slot p k = .empty)
      (hr : s.overlapsOwn p (s.entry h.entry).range = false) : Event s (s.adopt h p k)
  | waits (p : Port) (k : SlotNo) (d : Descriptor) (hk : s.slot p k = .empty) (hr : s.overlapsOwn p d.range = false)
      (hp : (s.port p).state = .opened) : Event s ((s.queued p k (.waiting d) (s.waitQueue ++ [⟨p, k⟩])).contest d)
  | withdrawn (p : Port) (k : SlotNo) (d : Descriptor) (hk : s.slot p k = .waiting d) : Event s (s.withdraw p k d)
  /-- A write burst is accepted (R99). -/
  | wrote (p : Port) (w : WriteBurst) (hp : (s.port p).state = .opened) (hu : (s.entry w.entry).state ≠ .free) :
      Event s ((s.raiseInFlight w.entry).modPort p fun r => { r with writeBuffer := r.writeBuffer ++ [w] })
  /-- A read is accepted, which no read of the port is (R99, R103). -/
  | accepted (p : Port) (rd : PortRead) (e : EntryId) (hst : rd.stage = .accepted e)
      (hp : (s.port p).state ≠ .closed ∨ (s.port p).read ≠ none) (hn : ∀ r ∈ (s.port p).read, r.stage = .held)
      (hu : (s.entry e).state ≠ .free) :
      Event s ((s.raiseInFlight e).modPort p fun r => { r with read := some rd })
  /-- A read is held, or one that was not accepted ends (R96, R103). -/
  | read (p : Port) (r : PortRec) (hs : r.state = (s.port p).state) (hsl : r.slots = (s.port p).slots)
      (hw : r.writeBuffer = (s.port p).writeBuffer) (hf : PortForm (s.port p) → PortForm r)
      (hn : ∀ r ∈ (s.port p).read, r.stage = .held) (hn' : ∀ r' ∈ r.read, r'.stage = .held) : Event s (s.setPort p r)
  /-- The memory port carries a burst further, or begins one that a port offers (R105, R106). -/
  | carries {t : State} (he : t.entries = s.entries) (hp : t.ports = s.ports) (hq : t.waitQueue = s.waitQueue)
      (ha : activeOffered s = true → activeOffered t = true) : Event s t
  /-- The burst at the memory port finishes (R106). -/
  | finished (b c : ActiveBurst) (hb : s.memPort = some b)
      (hc : c = { b with done := c.done, got := c.got, parityError := c.parityError }) : Event s (s.endBurst c)
  | reset : Event s s.partReset

/-! ## The counts in flight (R14, R18, R106) -/

/-- The buffered writes, the reads and the burst at the memory port stay, and with them every count in flight. -/
structure FlightKept (s t : State) : Prop where
  bursts : ∀ p, (t.port p).writeBuffer = (s.port p).writeBuffer ∧ (t.port p).read = (s.port p).read
  memPort : t.memPort = s.memPort
  inFlight : ∀ e, ((s.entry e).state = .free → (s.entry e).inFlight = 0) →
    (t.entry e).inFlight = (s.entry e).inFlight ∧ ((t.entry e).state = .free → (t.entry e).inFlight = 0)

theorem activeOffered_congr {s t : State} (hm : t.memPort = s.memPort)
    (hb : ∀ p, (t.port p).writeBuffer = (s.port p).writeBuffer ∧ (t.port p).read = (s.port p).read) :
    activeOffered t = activeOffered s := by
  unfold activeOffered
  simp only [hm, (hb _).1, (hb _).2]

theorem tied_congr {s t : State}
    (hb : ∀ p, (t.port p).writeBuffer = (s.port p).writeBuffer ∧ (t.port p).read = (s.port p).read) (e : EntryId) :
    tied t e = tied s e := by
  unfold tied tiedAt
  simp only [(hb _).1, (hb _).2]

theorem FlightKept.flightLaw {s t : State} (h : FlightKept s t) (hs : FlightLaw s) : FlightLaw t := by
  obtain ⟨hcount, hfree, hact⟩ := hs
  refine ⟨fun e => ?_, fun e => (h.inFlight e (hfree e)).2, ?_⟩
  · rw [(h.inFlight e (hfree e)).1, hcount, tied_congr h.bursts]
  · rw [activeOffered_congr h.memPort h.bursts, hact]

theorem PortsMarked.bursts {s t : State} (h : PortsMarked s t) (q : Port) :
    (t.port q).writeBuffer = (s.port q).writeBuffer ∧ (t.port q).read = (s.port q).read := by
  obtain ⟨sl, m, hq⟩ := h q
  rw [hq]; exact ⟨rfl, rfl⟩

theorem PortsMarked.form {s t : State} (h : PortsMarked s t) (q : Port) (hf : PortForm (s.port q)) : PortForm (t.port q) := by
  obtain ⟨sl, m, hq⟩ := h q
  rw [hq]
  exact portForm_flagsSet m ⟨hf.applied, hf.closed⟩

theorem LeaseEvent.marks {s t : State} {e : EntryId} (h : LeaseEvent s t e) : PortsMarked s t := by
  obtain ⟨x, before, ht, hb, -⟩ := h.turns
  intro q
  obtain ⟨m, hm⟩ := ht.ports q
  obtain ⟨sl, hsl⟩ := hb q
  exact ⟨sl, m, by rw [hm, hsl]⟩

theorem LeaseEvent.flightKept {s t : State} {e : EntryId} (h : LeaseEvent s t e) : FlightKept s t := by
  obtain ⟨x, before, ht, -, hi, hf⟩ := h.turns
  refine ⟨h.marks.bursts, ht.memPort, fun f hfree => ?_⟩
  by_cases hfe : f = e
  · subst hfe
    rw [ht.entry]
    refine ⟨hi, fun hx => ?_⟩
    by_cases hs : (s.entry f).state = .free
    · rw [hi, hfree hs]
    · exact hf hx hs
  · rw [ht.others f hfe]; exact ⟨rfl, hfree⟩

/-- A grant lets the count of a joined entry be, and an allocated one, which was FREE, has none. -/
theorem State.grantClaim_flightKept (s : State) (p : Port) (k : SlotNo) (d : Descriptor) :
    FlightKept s (s.grantClaim p k d) := by
  obtain ⟨hmarks, hframe⟩ := s.grantClaim_marks p k d
  refine ⟨hmarks.bursts, by rw [hframe], fun e hfree => ?_⟩
  cases hj : s.joinTarget p d with
  | some f =>
    rw [State.grantClaim_join k hj, State.granted_entry]
    split_ifs with he
    · subst he; exact ⟨rfl, hfree⟩
    · exact ⟨rfl, hfree⟩
  | none =>
    cases hf : s.lowestFree with
    | some f =>
      rw [State.grantClaim_new k hj hf, State.granted_entry]
      split_ifs with he
      · subst he
        exact ⟨(hfree (s.lowestFree_some hf)).symm, fun hc => by cases hc⟩
      · exact ⟨rfl, hfree⟩
    | none =>
      have hid : s.grantClaim p k d = s := by unfold State.grantClaim; simp only [hj, hf]
      rw [hid]
      exact ⟨rfl, hfree⟩

theorem State.adopt_flightKept (s : State) {h : Handle} (p : Port) (k : SlotNo) : FlightKept s (s.adopt h p k) := by
  obtain ⟨hmarks, -, hmem⟩ := s.adopt_marks h p k
  refine ⟨hmarks.bursts, hmem, fun e hfree => ?_⟩
  rw [State.adopt_entry]
  split_ifs with he
  · subst he; exact ⟨rfl, fun hc => by cases hc⟩
  · exact ⟨rfl, hfree⟩

theorem Books.flightKept {s t : State} (h : Books s t) : FlightKept s t :=
  ⟨h.bursts, h.memPort, fun e hfree => by rw [h.entry]; exact ⟨rfl, hfree⟩⟩

theorem contestedBy_inFlight (d : Descriptor) (g : BitVec 8) (x : Entry) :
    (contestedBy d g x).inFlight = x.inFlight ∧ (contestedBy d g x).state = x.state := by
  unfold contestedBy; split_ifs <;> exact ⟨rfl, rfl⟩

theorem uncontestedBy_inFlight (d : Descriptor) (cs : List Descriptor) (x : Entry) :
    (uncontestedBy d cs x).inFlight = x.inFlight ∧ (uncontestedBy d cs x).state = x.state := by
  unfold uncontestedBy; split_ifs <;> exact ⟨rfl, rfl⟩

theorem flightKept_of_states {s t : State} (hm : PortsMarked s t) (hp : t.memPort = s.memPort)
    (he : ∀ e, (t.entry e).inFlight = (s.entry e).inFlight ∧ (t.entry e).state = (s.entry e).state) : FlightKept s t :=
  ⟨hm.bursts, hp, fun e hfree => by rw [(he e).1, (he e).2]; exact ⟨rfl, hfree⟩⟩

theorem State.contest_marks (s : State) (p : Port) (k : SlotNo) (d : Descriptor) (w : List ClaimId) :
    PortsMarked s ((s.queued p k (.waiting d) w).contest d) ∧
    ((s.queued p k (.waiting d) w).contest d).memPort = s.memPort := by
  obtain ⟨hu, -⟩ := (s.queued p k (.waiting d) w).contest_entries d
  generalize (s.queued p k (.waiting d) w).contest d = t at hu ⊢
  exact ⟨(s.queued_marks p k _ _).trans hu.marks, (congrArg State.memPort hu.frame).trans rfl⟩

theorem State.contest_flightKept (s : State) (p : Port) (k : SlotNo) (d : Descriptor) (w : List ClaimId) :
    FlightKept s ((s.queued p k (.waiting d) w).contest d) := by
  obtain ⟨hm, hp⟩ := s.contest_marks p k d w
  refine flightKept_of_states hm hp fun e => ?_
  rw [((s.queued p k (.waiting d) w).contest_entries d).2 e]
  exact contestedBy_inFlight d _ _

theorem State.withdraw_entry (s : State) (p : Port) (k : SlotNo) (d : Descriptor) (e : EntryId) : ∃ cs,
    (s.withdraw p k d).entry e = uncontestedBy d cs (s.entry e) := by
  obtain ⟨-, he⟩ := (s.queued p k .empty (s.waitQueue.erase ⟨p, k⟩)).uncontest_entries d
  rw [State.withdraw_eq]
  generalize (s.queued p k .empty (s.waitQueue.erase ⟨p, k⟩)).uncontest d = t at he ⊢
  exact ⟨_, he e⟩

theorem State.withdraw_flightKept (s : State) (p : Port) (k : SlotNo) (d : Descriptor) : FlightKept s (s.withdraw p k d) := by
  obtain ⟨hm, hf⟩ := s.withdraw_marks p k d
  refine flightKept_of_states hm (by rw [hf]) fun e => ?_
  obtain ⟨cs, he⟩ := s.withdraw_entry p k d e
  rw [he]
  exact uncontestedBy_inFlight d cs _

end Sys2Proof.Machine
end

section
/-! SUPPORT. The bursts of the pool: what is tied to an entry, and what the end of a burst leaves. -/

namespace Sys2Proof.Machine

/-! ## What the end of a burst leaves (R104, R106, R109, R131, R157) -/

theorem State.endRead_eq (s : State) (p : Port) (a : Answer) :
    s.endRead p a = s.setPort p (readEndedPort (s.port p) a) := by
  unfold State.endRead readEndedPort State.drives
  rw [State.modPort_eq]
  cases (s.port p).state with
  | closed => rfl
  | opened => rfl
  | closing c st => cases c <;> rfl

theorem State.refuseRead_eq (s : State) (p : Port) (a : BitVec 22) (c : RefusalCode) :
    s.refuseRead p a c = s.setPort p (readRefusedPort (s.port p) c a) := by
  unfold State.refuseRead
  rw [State.endRead_eq, State.offerFault_eq, State.setPort_setPort, State.setPort_port_self]
  rfl

/-- The port of a burst that has finished: a write is out of its buffer, a read is answered or refused. -/
def burstDone (c : ActiveBurst) (r : PortRec) : PortRec :=
  match c.kind with
  | .write _ => { r with writeBuffer := r.writeBuffer.tail }
  | .read _ => if c.parityError = true then readRefusedPort r .poolParity c.addr else readEndedPort r (.done c.got)

theorem readEndedPort_flagsSet (r : PortRec) (m : BitVec 8) (a : Answer) :
    readEndedPort (flagsSet r m) a = flagsSet (readEndedPort r a) m := rfl

theorem readRefusedPort_flagsSet (r : PortRec) (m : BitVec 8) (c : RefusalCode) (a : BitVec 22) :
    readRefusedPort (flagsSet r m) c a = flagsSet (readRefusedPort r c a) m := by
  by_cases hc : r.state = .closed
  · have hs : (readRefusedPort r c a).state = .closed := hc
    rw [flagsSet_closed m hc, flagsSet_closed m hs]
  · simp [readRefusedPort, readEndedPort, refusedPort, flagsSet, hc, BitVec.or_assoc, BitVec.or_comm m]

/-- Notices set before a burst's end in the same event are set after it. -/
theorem burstDone_flagsSet (c : ActiveBurst) (r : PortRec) (m : BitVec 8) :
    burstDone c (flagsSet r m) = flagsSet (burstDone c r) m := by
  unfold burstDone
  cases c.kind with
  | write ws => rfl
  | read len =>
    split_ifs
    · exact readRefusedPort_flagsSet r m _ _
    · exact readEndedPort_flagsSet r m _

theorem State.endBurst_eq (s : State) (c : ActiveBurst) :
    s.endBurst c = (({ s with memPort := none } : State).lowerInFlight c.entry).modPort c.port (burstDone c) := by
  unfold State.endBurst burstDone
  cases c.kind with
  | write ws => rfl
  | read len =>
    dsimp only
    rw [State.modPort_eq]
    split_ifs
    · exact State.refuseRead_eq _ _ _ _
    · exact State.endRead_eq _ _ _

/-- One more replacement of a port's record in the same event. -/
theorem becomes_modPort {s u : State} {e : EntryId} {x : Entry} {before : Port → PortRec} {marks : Port → BitVec 8}
    (p : Port) {f : PortRec → PortRec} (hf : ∀ r m, f (flagsSet r m) = flagsSet (f r) m) (h : becomes s u e x before marks) :
    becomes s (u.modPort p f) e x (Function.update before p (f (before p))) marks := by
  obtain ⟨h1, h2, h3, h4, h5, h6, h7⟩ := h
  refine ⟨?_, h2, h3, h4, h5, h6, fun q => ?_⟩
  · unfold leaseFrame; rw [h1]; rfl
  · by_cases hq : q = p
    · subst hq
      rw [State.modPort_port_self, h7, hf, Function.update_self]
    · rw [State.modPort_port_ne _ _ hq, h7, Function.update_of_ne hq]

theorem becomesFree_modPort {s u : State} {e : EntryId} {before : Port → PortRec} {marks : Port → BitVec 8}
    (p : Port) {f : PortRec → PortRec} (hf : ∀ r m, f (flagsSet r m) = flagsSet (f r) m) (h : becomesFree s u e before marks) :
    becomesFree s (u.modPort p f) e (Function.update before p (f (before p))) marks := by
  obtain ⟨h1, h2, h3, h4, h5, h6, h7⟩ := h
  refine ⟨?_, h2, h3, h4, h5, h6, fun q => ?_⟩
  · unfold leaseFrame; rw [h1]; rfl
  · by_cases hq : q = p
    · subst hq
      rw [State.modPort_port_self, h7, hf, Function.update_self]
    · rw [State.modPort_port_ne _ _ hq, h7, Function.update_of_ne hq]

/-- A burst finishes: its count falls and its port is done with it. -/
theorem State.endBurst_ends (s : State) (c : ActiveBurst) :
    burstEnds { s with memPort := none } (s.endBurst c) c.entry (portsBut s c.port (burstDone c (s.port c.port))) noMarks := by
  have h := State.lowerInFlight_ends { s with memPort := none } c.entry
  have hp : portsBut s c.port (burstDone c (s.port c.port)) =
      Function.update s.port c.port (burstDone c (s.port c.port)) := by
    funext q
    rw [Function.update_apply]
    rfl
  rw [State.endBurst_eq, hp]
  unfold burstEnds at h ⊢
  split_ifs at h ⊢
  · exact becomesFree_modPort c.port (burstDone_flagsSet c) h
  · exact becomes_modPort c.port (burstDone_flagsSet c) h

/-- The entry of a burst that has finished (R14, R18). -/
def burstEndedEntry (x : Entry) : Entry :=
  if x.state = .draining ∧ x.inFlight ≤ 1 then { Entry.unused with generation := x.generation }
  else { x with inFlight := x.inFlight - 1 }

theorem turns_of_burstEnds {s t : State} {e : EntryId} {before : Port → PortRec} {marks : Port → BitVec 8}
    (h : burstEnds s t e before marks) : Turns s t e (burstEndedEntry (s.entry e)) before := by
  unfold burstEnds at h
  unfold burstEndedEntry
  split_ifs at h ⊢
  · obtain ⟨hf, ho, he, -, -, -, hp⟩ := h
    exact ⟨hf, ho, he, fun q => ⟨_, hp q⟩⟩
  · exact turns_of_becomes h

theorem State.endBurst_turns (s : State) (c : ActiveBurst) :
    Turns { s with memPort := none } (s.endBurst c) c.entry (burstEndedEntry (s.entry c.entry))
      (portsBut s c.port (burstDone c (s.port c.port))) := turns_of_burstEnds (s.endBurst_ends c)

/-! ## What is tied to an entry (R14) -/

/-- The bursts of one port that are tied to an entry. -/
def tiedRec (r : PortRec) (e : EntryId) : Nat :=
  (r.writeBuffer.filter fun w => w.entry == e).length +
    (match r.read with
     | none => 0
     | some r => if r.stage = .accepted e then 1 else 0)

theorem tied_eq_sum (s : State) (e : EntryId) : tied s e = ∑ p, tiedRec (s.port p) e := by
  rw [Fin.sum_univ_four]; rfl

/-- What is tied to an entry, when one port alone differs. -/
theorem tied_of_port {s t : State} {p : Port} (ho : ∀ q, q ≠ p → tiedRec (t.port q) = tiedRec (s.port q)) (e : EntryId) :
    tied t e + tiedRec (s.port p) e = tied s e + tiedRec (t.port p) e := by
  have ht := Finset.add_sum_erase Finset.univ (fun q => tiedRec (t.port q) e) (Finset.mem_univ p)
  have hs := Finset.add_sum_erase Finset.univ (fun q => tiedRec (s.port q) e) (Finset.mem_univ p)
  have hrest : ∑ q ∈ Finset.univ.erase p, tiedRec (t.port q) e = ∑ q ∈ Finset.univ.erase p, tiedRec (s.port q) e :=
    Finset.sum_congr rfl fun q hq => by rw [ho q (Finset.ne_of_mem_erase hq)]
  rw [tied_eq_sum, tied_eq_sum]
  omega

theorem tiedRec_append (r : PortRec) (w : WriteBurst) (e : EntryId) :
    tiedRec { r with writeBuffer := r.writeBuffer ++ [w] } e = tiedRec r e + if e = w.entry then 1 else 0 := by
  simp only [tiedRec, List.filter_append, List.length_append]
  by_cases he : e = w.entry
  · subst he; simp; omega
  · simp [he, Ne.symm he]

/-- A read that is not accepted is tied to no entry. -/
theorem tiedRec_read {r r' : PortRec} (hw : r'.writeBuffer = r.writeBuffer) (hn : ∀ x ∈ r.read, x.stage = .held)
    (e : EntryId) : tiedRec r' e = tiedRec r e +
      (match r'.read with
       | none => 0
       | some r => if r.stage = .accepted e then 1 else 0) := by
  have h0 : (match r.read with
       | none => 0
       | some r => if r.stage = .accepted e then 1 else 0) = 0 := by
    cases hr : r.read with
    | none => rfl
    | some x => simp [hn x (by simp [hr])]
  simp only [tiedRec, hw, h0, Nat.add_zero]

/-- The burst at the memory port, when it is the one its port offers (R105, R106). -/
theorem activeOffered_iff {s : State} {b : ActiveBurst} (hb : s.memPort = some b) : activeOffered s = true ↔
    (∃ ws rest, b.kind = .write ws ∧ (s.port b.port).writeBuffer = ⟨b.addr, b.enables, ws, b.entry⟩ :: rest) ∨
    ∃ len, b.kind = .read len ∧ (s.port b.port).read = some ⟨b.addr, b.enables, len, .accepted b.entry⟩ := by
  unfold activeOffered
  simp only [hb]
  cases hk : b.kind with
  | write ws =>
    cases hw : (s.port b.port).writeBuffer <;> simp
  | read len => simp

theorem activeOffered_of_none {s : State} (hb : s.memPort = none) : activeOffered s = true := by
  unfold activeOffered; simp only [hb]

/-- The burst at the memory port stays the one its port offers while every port goes on offering it. -/
theorem activeOffered_of_ports {s t : State} (hm : t.memPort = s.memPort)
    (hw : ∀ q w rest, (s.port q).writeBuffer = w :: rest → ∃ rest', (t.port q).writeBuffer = w :: rest')
    (hr : ∀ q x e, (s.port q).read = some x → x.stage = .accepted e → (t.port q).read = some x)
    (h : activeOffered s = true) : activeOffered t = true := by
  cases hb : s.memPort with
  | none => exact activeOffered_of_none (hm.trans hb)
  | some b =>
    rw [activeOffered_iff (hm.trans hb)]
    rcases (activeOffered_iff hb).1 h with ⟨ws, rest, hk, hws⟩ | ⟨len, hk, hrd⟩
    · obtain ⟨rest', hws'⟩ := hw _ _ _ hws
      exact .inl ⟨ws, rest', hk, hws'⟩
    · exact .inr ⟨len, hk, hr _ _ _ hrd rfl⟩

/-! ## The counts in flight under the events of the pool -/

section
variable {s t : State} {p : Port}

/-- A burst is accepted under an entry in use: its count rises, and one more burst of the port is tied to it (R99). -/
theorem flightLaw_of_accepted {e : EntryId} {r : PortRec} (hs : FlightLaw s) (hu : (s.entry e).state ≠ .free)
    (ht : ∀ f, tiedRec r f = tiedRec (s.port p) f + if f = e then 1 else 0)
    (hw : ∀ w rest, (s.port p).writeBuffer = w :: rest → ∃ rest', r.writeBuffer = w :: rest')
    (hr : ∀ x f, (s.port p).read = some x → x.stage = .accepted f → r.read = some x) :
    FlightLaw ((s.raiseInFlight e).setPort p r) := by
  obtain ⟨hcount, hfree, hact⟩ := hs
  have hent : ∀ f, (((s.raiseInFlight e).setPort p r).entry f).inFlight = (s.entry f).inFlight + (if f = e then 1 else 0) ∧
      (((s.raiseInFlight e).setPort p r).entry f).state = (s.entry f).state := by
    intro f
    rw [State.setPort_entry, State.raiseInFlight]
    by_cases hf : f = e
    · subst hf; simp
    · simp [hf]
  have hport := forall_setPort (s := s.raiseInFlight e) (p := p) (r := r)
    (motive := fun q x => (∀ w rest, (s.port q).writeBuffer = w :: rest → ∃ rest', x.writeBuffer = w :: rest') ∧
      ∀ y f, (s.port q).read = some y → y.stage = .accepted f → x.read = some y) ⟨hw, hr⟩
    fun q _ => ⟨fun w rest h => ⟨rest, h⟩, fun y f h _ => h⟩
  refine ⟨fun f => ?_, fun f hf => ?_, ?_⟩
  · have hsum := tied_of_port (s := s) (t := (s.raiseInFlight e).setPort p r) (p := p)
      (fun q hq => by rw [State.setPort_port_ne _ _ hq]; rfl) f
    rw [State.setPort_port_self, ht] at hsum
    rw [(hent f).1, hcount]
    omega
  · have hne : f ≠ e := fun hc => hu (by rw [← hc, ← (hent f).2, hf])
    rw [(hent f).2] at hf
    rw [(hent f).1, if_neg hne, hfree f hf]
  · exact activeOffered_of_ports (s := s) rfl (fun q => (hport q).1) (fun q => (hport q).2) hact

/-- A read that is tied to nothing is replaced by another such. -/
theorem flightLaw_of_read {r : PortRec} (hs : FlightLaw s) (hw : r.writeBuffer = (s.port p).writeBuffer)
    (hn : ∀ x ∈ (s.port p).read, x.stage = .held) (hn' : ∀ x ∈ r.read, x.stage = .held) : FlightLaw (s.setPort p r) := by
  obtain ⟨hcount, hfree, hact⟩ := hs
  have ht : ∀ f, tiedRec r f = tiedRec (s.port p) f := by
    intro f
    rw [tiedRec_read hw hn f]
    cases hr : r.read with
    | none => rfl
    | some x => simp [hn' x (by simp [hr])]
  refine ⟨fun f => ?_, hfree, ?_⟩
  · have hsum := tied_of_port (s := s) (t := s.setPort p r) (p := p) (fun q hq => by rw [State.setPort_port_ne _ _ hq]) f
    rw [State.setPort_port_self, ht] at hsum
    rw [State.setPort_entry, hcount]
    omega
  · have hport := forall_setPort (s := s) (p := p) (r := r)
      (motive := fun q x => (∀ w rest, (s.port q).writeBuffer = w :: rest → ∃ rest', x.writeBuffer = w :: rest') ∧
        ∀ y f, (s.port q).read = some y → y.stage = .accepted f → x.read = some y)
      ⟨fun w rest h => ⟨rest, hw.trans h⟩, fun y f hy hst => by rw [hn y hy] at hst; cases hst⟩
      fun q _ => ⟨fun w rest h => ⟨rest, h⟩, fun y f h _ => h⟩
    exact activeOffered_of_ports (s := s) rfl (fun q => (hport q).1) (fun q => (hport q).2) hact

theorem tiedRec_flagsSet (r : PortRec) (m : BitVec 8) : tiedRec (flagsSet r m) = tiedRec r := rfl

/-- A burst that its port offers is tied once less when it has finished. -/
theorem tiedRec_burstDone {b c : ActiveBurst} (hb : s.memPort = some b) (ha : activeOffered s = true)
    (hc : c = { b with done := c.done, got := c.got, parityError := c.parityError }) (e : EntryId) :
    tiedRec (burstDone c (s.port b.port)) e + (if e = b.entry then 1 else 0) = tiedRec (s.port b.port) e := by
  have hkind : c.kind = b.kind := by rw [hc]
  rcases (activeOffered_iff hb).1 ha with ⟨ws, rest, hk, hw⟩ | ⟨len, hk, hr⟩
  · simp only [tiedRec, burstDone, hkind, hk, hw, List.tail_cons, List.filter_cons]
    by_cases he : e = b.entry
    · subst he; simp; omega
    · simp [he, Ne.symm he]
  · have hread : (burstDone c (s.port b.port)).read = none ∧
        (burstDone c (s.port b.port)).writeBuffer = (s.port b.port).writeBuffer := by
      unfold burstDone
      rw [hkind, hk]
      dsimp only
      split_ifs <;> exact ⟨rfl, rfl⟩
    simp only [tiedRec, hread.1, hread.2, hr, ReadStage.accepted.injEq]
    by_cases he : e = b.entry
    · subst he; simp
    · simp [he, Ne.symm he]

/-- A burst finishes: its entry's count and what is tied to it fall together (R14, R18, R106). -/
theorem flightLaw_of_finished {b c : ActiveBurst} (hb : s.memPort = some b)
    (hc : c = { b with done := c.done, got := c.got, parityError := c.parityError }) (hs : FlightLaw s) :
    FlightLaw (s.endBurst c) := by
  obtain ⟨hcount, hfree, hact⟩ := hs
  have hport : c.port = b.port := by rw [hc]
  have hentry : c.entry = b.entry := by rw [hc]
  have h := s.endBurst_turns c
  rw [hport, hentry] at h
  have hdone := tiedRec_burstDone hb hact hc
  have htied : ∀ e, tied (s.endBurst c) e + (if e = b.entry then 1 else 0) = tied s e := by
    intro e
    have hrec : ∀ q, tiedRec ((s.endBurst c).port q) = tiedRec (portsBut s b.port (burstDone c (s.port b.port)) q) := by
      intro q
      obtain ⟨m, hm⟩ := h.ports q
      rw [hm, tiedRec_flagsSet]
    have hsum := tied_of_port (s := s) (t := s.endBurst c) (p := b.port) (fun q hq => by rw [hrec, portsBut, if_neg hq]) e
    rw [hrec, portsBut, if_pos rfl] at hsum
    have := hdone e
    omega
  have hpos : 1 ≤ (s.entry b.entry).inFlight := by
    have := htied b.entry
    rw [if_pos rfl] at this
    rw [hcount]; omega
  have hin : ∀ e, ((s.endBurst c).entry e).inFlight + (if e = b.entry then 1 else 0) = (s.entry e).inFlight := by
    intro e
    by_cases he : e = b.entry
    · subst he
      rw [h.entry, if_pos rfl]
      unfold burstEndedEntry
      split_ifs with hd
      · have : ({ Entry.unused with generation := (s.entry b.entry).generation } : Entry).inFlight = 0 := rfl
        omega
      · dsimp only; omega
    · rw [h.others e he, if_neg he]; rfl
  refine ⟨fun e => ?_, fun e hf => ?_, activeOffered_of_none (congrArg State.memPort h.frame)⟩
  · have h1 := htied e
    have h2 := hin e
    rw [hcount e] at h2
    omega
  · by_cases he : e = b.entry
    · subst he
      rw [h.entry] at hf ⊢
      unfold burstEndedEntry at hf ⊢
      split_ifs at hf ⊢
      · rfl
      · have := hfree b.entry hf
        dsimp only; omega
    · rw [h.others e he] at hf ⊢
      exact hfree e hf

end

end Sys2Proof.Machine
end

section
/-! SUPPORT. What every event keeps: the counts in flight, each port's own record, and the tables. -/

namespace Sys2Proof.Machine

variable {s t : State}

/-! ## The counts in flight (R14, R18, R106) -/

theorem State.partReset_port (s : State) (p : Port) : s.partReset.port p = (s.port p).afterReset p s.nreset := by
  unfold State.partReset State.port Table.look
  rw [Vector.get_eq_getElem]
  exact Vector.getElem_ofFn _

theorem afterReset_cleared (r : PortRec) (p : Port) (n : Bool) : (r.afterReset p n).slots = Vector.replicate 4 .empty ∧
    (r.afterReset p n).writeBuffer = [] ∧ (r.afterReset p n).read = none := ⟨rfl, rfl, rfl⟩

theorem reset_entry (e : EntryId) : State.reset.entry e = Entry.unused := by
  simp [State.reset, State.entry, Table.look, Vector.get_eq_getElem]

theorem State.partReset_entry (s : State) (e : EntryId) : s.partReset.entry e = Entry.unused := reset_entry e

theorem State.partReset_flightLaw (s : State) : FlightLaw s.partReset := by
  have htied : ∀ p e, tiedRec (s.partReset.port p) e = 0 := fun p e => by
    obtain ⟨-, hw, hr⟩ := afterReset_cleared (s.port p) p s.nreset
    rw [State.partReset_port, tiedRec, hw, hr]
    rfl
  refine ⟨fun e => ?_, fun e _ => by rw [State.partReset_entry]; rfl, activeOffered_of_none rfl⟩
  rw [State.partReset_entry, tied_eq_sum, Finset.sum_eq_zero fun p _ => htied p e]
  rfl

/-- Every event keeps the counts in flight. -/
theorem Event.flightLaw (h : Event s t) (hs : FlightLaw s) : FlightLaw t := by
  cases h with
  | books h => exact h.flightKept.flightLaw hs
  | lease h => exact h.flightKept.flightLaw hs
  | granted p k d _ _ _ => exact (s.grantClaim_flightKept p k d).flightLaw hs
  | adopted h p k _ _ _ _ _ => exact (s.adopt_flightKept p k).flightLaw hs
  | waits p k d _ _ _ => exact (s.contest_flightKept p k d _).flightLaw hs
  | withdrawn p k d _ => exact (s.withdraw_flightKept p k d).flightLaw hs
  | wrote p w _ hu =>
    refine flightLaw_of_accepted hs hu (fun f => tiedRec_append _ w f) (fun w' rest hw => ⟨rest ++ [w], ?_⟩)
      fun x f hx _ => hx
    simp only [State.raiseInFlight, State.modEntry_port, hw, List.cons_append]
  | accepted p rd e hst _ hn hu =>
    refine flightLaw_of_accepted hs hu (fun f => ?_) (fun w rest hw => ⟨rest, hw⟩)
      fun x f hx hxs => by rw [hn x hx] at hxs; cases hxs
    refine (tiedRec_read (r := s.port p) (r' := { s.port p with read := some rd }) rfl hn f).trans ?_
    by_cases hf : f = e
    · subst hf; simp [hst]
    · simp [hst, hf, Ne.symm hf]
  | read p r _ _ hw _ hn hn' => exact flightLaw_of_read hs hw hn hn'
  | carries he hp _ ha =>
    obtain ⟨hcount, hfree, hact⟩ := hs
    have hent : ∀ e, t.entry e = s.entry e := fun e => by rw [State.entry, he]; rfl
    have hport : ∀ p, t.port p = s.port p := fun p => by rw [State.port, hp]; rfl
    refine ⟨fun e => ?_, fun e => by rw [hent]; exact hfree e, ha hact⟩
    rw [hent, hcount, tied_congr fun p => by rw [hport]; exact ⟨rfl, rfl⟩]
  | finished b c hb hc => exact flightLaw_of_finished hb hc hs
  | reset => exact s.partReset_flightLaw

/-! ## Each port's own record (R128, R133) -/

theorem portForm_afterReset (r : PortRec) (p : Port) (n : Bool) : PortForm (r.afterReset p n) :=
  ⟨fun _ => rfl, fun _ => ⟨rfl, rfl, rfl, rfl, rfl, rfl⟩⟩

theorem portForm_of_not_closed {r r' : PortRec} (h : PortForm r) (hc : r.state ≠ .closed) (hs : r'.state = r.state)
    (hq : r'.holdQueue = r.holdQueue) : PortForm r' :=
  ⟨fun ha => hq.trans (h.applied (hs ▸ ha)), fun hc' => absurd (hs ▸ hc') hc⟩

/-- The end of a burst that its port offers keeps what the port's record keeps: a CLOSED port offers none. -/
theorem portForm_burstDone {b c : ActiveBurst} (hb : s.memPort = some b) (ha : activeOffered s = true)
    (hf : PortForm (s.port b.port)) : PortForm (burstDone c (s.port b.port)) := by
  have hc : (s.port b.port).state ≠ .closed := by
    intro hc
    obtain ⟨hw, hr, -⟩ := hf.closed hc
    rcases (activeOffered_iff hb).1 ha with ⟨ws, rest, -, h⟩ | ⟨len, -, h⟩
    · rw [hw] at h; cases h
    · rw [hr] at h; cases h
  unfold burstDone
  cases c.kind with
  | write ws => exact portForm_of_not_closed hf hc rfl rfl
  | read len =>
    dsimp only
    split_ifs <;> exact portForm_of_not_closed hf hc rfl rfl

/-- Every event keeps what each port's record keeps. -/
theorem Event.form (h : Event s t) (ha : activeOffered s = true) (hs : ∀ p, PortForm (s.port p)) (q : Port) :
    PortForm (t.port q) := by
  cases h with
  | books h => exact h.form q (hs q)
  | lease h => exact h.marks.form q (hs q)
  | granted p k d _ _ _ => exact (s.grantClaim_marks p k d).1.form q (hs q)
  | adopted h p k _ _ _ _ _ => exact (s.adopt_marks h p k).1.form q (hs q)
  | waits p k d _ _ _ => exact (s.contest_marks p k d _).1.form q (hs q)
  | withdrawn p k d _ => exact (s.withdraw_marks p k d).1.form q (hs q)
  | wrote p w hp _ =>
    exact forall_setPort (s := s.raiseInFlight w.entry) (motive := fun _ r => PortForm r)
      (r := { s.port p with writeBuffer := (s.port p).writeBuffer ++ [w] })
      (portForm_of_not_closed (hs p) (by simp [hp]) rfl rfl) (fun q _ => hs q) q
  | accepted p rd e _ hp _ _ =>
    have hc : (s.port p).state ≠ .closed := by
      rcases hp with hp | hp
      · exact hp
      · exact fun hc => hp ((hs p).closed hc).2.1
    exact forall_setPort (s := s.raiseInFlight e) (motive := fun _ r => PortForm r) (r := { s.port p with read := some rd })
      (portForm_of_not_closed (hs p) hc rfl rfl) (fun q _ => hs q) q
  | read p r _ _ _ hf _ _ =>
    exact forall_setPort (motive := fun _ r => PortForm r) (hf (hs p)) (fun q _ => hs q) q
  | carries _ hp _ _ =>
    rw [State.port, hp]
    exact hs q
  | finished b c hb hc =>
    obtain ⟨m, hm⟩ := (s.endBurst_turns c).ports q
    have hport : c.port = b.port := by rw [hc]
    rw [hm, hport]
    refine portForm_flagsSet m ?_
    unfold portsBut
    split_ifs with hq
    · exact portForm_burstDone hb ha (hs _)
    · exact hs q
  | reset => rw [State.partReset_port]; exact portForm_afterReset _ _ _

/-! ## The tables -/

/-- The tables are as they were when the entries, the queue and of each port the state and the slots are. -/
theorem recorded_of_same (he : ∀ e, t.entry e = s.entry e) (hq : t.waitQueue = s.waitQueue)
    (hp : ∀ q, (t.port q).state = (s.port q).state ∧ (t.port q).slots = (s.port q).slots) : Recorded s t := by
  have hsl : ∀ q k, t.slot q k = s.slot q k := fun q k => by rw [State.slot, (hp q).2]; rfl
  exact {
    entry := fun e => he e ▸ EntryAlike.refl _
    grant := fun q k => by rw [hsl]
    vacant := fun q hv => .inl ⟨(hp q).1 ▸ hv, fun k hk => (hsl q k).trans hk⟩
    gone := fun q hg => .inl ((hp q).1 ▸ hg)
    same := he
    claim := fun c => State.claimAt_of_slot (hsl _ _)
    queue := hq }

/-- An entry in use of which the count in flight alone differs. -/
theorem wanes_of_count {e : EntryId} {n : Nat} (hs : TableLaw s) (he : t.entry e = { s.entry e with inFlight := n })
    (ho : othersKept s t e) (hq : t.waitQueue = s.waitQueue)
    (hp : ∀ q, (t.port q).state = (s.port q).state ∧ (t.port q).slots = (s.port q).slots)
    (hu : (s.entry e).state ≠ .free) (hn : n ≠ 0 ∨ (s.entry e).state ≠ .draining) : Wanes s t e := by
  obtain ⟨hfree, hlive, hexcl, hrise, hdrain, horph⟩ := hs.shape e
  refine wanes_of_slots hs ho hq (fun q => (hp q).1) (fun q k => by rw [State.slot, (hp q).2]; rfl) ?_ ?_ ?_ ?_ <;> rw [he]
  · exact ⟨fun hf => absurd hf hu, hlive, hexcl, hrise,
      fun hd => ⟨hn.elim id fun hn => absurd hd hn, (hdrain hd).2⟩, horph⟩
  · exact fun _ => ⟨hu, rfl, rfl, rfl, rfl, rfl⟩
  · exact fun q hq => hq
  · exact fun q => Iff.rfl

theorem State.raiseInFlight_setPort_wanes {e : EntryId} {p : Port} {r : PortRec} (hs : TableLaw s)
    (hu : (s.entry e).state ≠ .free) (hst : r.state = (s.port p).state) (hsl : r.slots = (s.port p).slots) :
    Wanes s ((s.raiseInFlight e).setPort p r) e :=
  wanes_of_count (n := (s.entry e).inFlight + 1) hs ((s.raiseInFlight e).setPort_entry p r e ▸ s.setEntry_entry_self e _)
    (fun _ hf => s.setEntry_entry_ne _ hf) rfl
    (forall_setPort (s := s.raiseInFlight e) (motive := fun q r => r.state = (s.port q).state ∧ r.slots = (s.port q).slots)
      ⟨hst, hsl⟩ fun _ _ => ⟨rfl, rfl⟩) hu (.inl (Nat.succ_ne_zero _))

theorem burstDone_tables (c : ActiveBurst) (r : PortRec) :
    (burstDone c r).state = r.state ∧ (burstDone c r).slots = r.slots := by
  unfold burstDone
  cases c.kind with
  | write ws => exact ⟨rfl, rfl⟩
  | read len =>
    dsimp only
    split_ifs <;> exact ⟨rfl, rfl⟩

/-- The end of a burst takes one from its entry's count, and its use if it has drained (R18). -/
theorem State.endBurst_wanes (hs : TableLaw s) (c : ActiveBurst) : Wanes s (s.endBurst c) c.entry := by
  have h := s.endBurst_turns c
  have hp : ∀ q, ((s.endBurst c).port q).state = (s.port q).state ∧ ((s.endBurst c).port q).slots = (s.port q).slots := by
    intro q
    obtain ⟨m, hm⟩ := h.ports q
    rw [hm, flagsSet_state, flagsSet_slots]
    unfold portsBut
    split_ifs with hq
    · subst hq; exact burstDone_tables c _
    · exact ⟨rfl, rfl⟩
  have he := h.entry
  unfold burstEndedEntry at he
  split_ifs at he with hd
  · refine wanes_of_slots hs h.others h.queue (fun q => (hp q).1) (fun q k => by rw [State.slot, (hp q).2]; rfl) ?_ ?_ ?_ ?_ <;>
      rw [he]
    · exact entryShape_unused _
    · exact fun hc => absurd rfl hc
    · exact fun q _ => rfl
    · refine fun q => ⟨fun hq => (by cases hq), fun hq => ?_⟩
      rw [entryShape_live_of_holdingState (hs.shape _) hq] at hd
      cases hd.1
  · by_cases hf : (s.entry c.entry).state = .free
    · -- A FREE entry has no count to fall.
      have hx := (hs.shape c.entry).1 hf
      have hsame : (s.endBurst c).entry c.entry = s.entry c.entry := by
        rw [he, hx]; rfl
      refine wanes_of_slots hs h.others h.queue (fun q => (hp q).1) (fun q k => by rw [State.slot, (hp q).2]; rfl) ?_ ?_ ?_ ?_ <;>
        rw [hsame]
      · exact hs.shape _
      · exact fun hc => absurd hf hc
      · exact fun q hq => hq
      · exact fun q => Iff.rfl
    · refine wanes_of_count hs he h.others h.queue hp hf ?_
      by_cases hdr : (s.entry c.entry).state = .draining
      · exact .inl (by have : ¬(s.entry c.entry).inFlight ≤ 1 := fun hc => hd ⟨hdr, hc⟩; omega)
      · exact .inr hdr

/-- Every event changes the tables in one of the six ways. -/
theorem Event.change (h : Event s t) (hs : TableLaw s) : Change s t := by
  cases h with
  | books h => exact .recorded h.recorded
  | lease h => exact .wanes _ (h.wanes hs)
  | granted p k d ha hc hr =>
    obtain ⟨g, hg⟩ := State.grantClaim_gains hs ha hc hr
    exact .gains p k d g hg
  | adopted h p k hg ho hp hk hr => exact .gains _ _ _ _ (State.adopt_gains hs hg ho hp hk hr)
  | waits p k d hk hr hp => exact .waits p k d (State.contest_waits hk hr hp)
  | withdrawn p k d hk => exact .withdrawn p k d (State.withdraw_withdrawn hk)
  | wrote p w _ hu => exact .wanes w.entry (State.raiseInFlight_setPort_wanes hs hu rfl rfl)
  | accepted p rd e _ _ _ hu => exact .wanes e (State.raiseInFlight_setPort_wanes hs hu rfl rfl)
  | read p r hst hsl _ _ _ _ =>
    exact .recorded (recorded_of_same (fun _ => rfl) rfl
      (forall_setPort (motive := fun q r => r.state = (s.port q).state ∧ r.slots = (s.port q).slots) ⟨hst, hsl⟩
        fun _ _ => ⟨rfl, rfl⟩))
  | carries he hp hq _ =>
    exact .recorded (recorded_of_same (fun e => by rw [State.entry, he]; rfl) hq fun q => by rw [State.port, hp]; exact ⟨rfl, rfl⟩)
  | finished b c _ _ => exact .wanes c.entry (State.endBurst_wanes hs c)
  | reset =>
    refine .cleared ⟨s.partReset_entry, fun q j => ?_, rfl⟩
    rw [State.slot, State.partReset_port, (afterReset_cleared _ _ _).1]
    simp [Table.look, Vector.get_eq_getElem]

/-! ## Sequences of events -/

/-- Events taken one after another. -/
abbrev Events : State → State → Prop := Relation.ReflTransGen Event

theorem Events.flightLaw (h : Events s t) (hs : FlightLaw s) : FlightLaw t := by
  induction h with
  | refl => exact hs
  | tail _ h ih => exact h.flightLaw ih

theorem Events.tableLaw (h : Events s t) (hs : TableLaw s) : TableLaw t := by
  induction h with
  | refl => exact hs
  | tail _ h ih => exact (h.change ih).tableLaw ih

theorem Events.leaseLaw (h : Events s t) (hs : LeaseLaw s) (hf : FlightLaw s) : LeaseLaw t := by
  have hlaw := leaseLaw_iff.1 hs
  obtain ⟨htable, -, hform⟩ : TableLaw t ∧ FlightLaw t ∧ ∀ p, PortForm (t.port p) := by
    induction h with
    | refl => exact ⟨hlaw.1, hf, hlaw.2⟩
    | tail _ h ih =>
      obtain ⟨ht, hfl, hp⟩ := ih
      exact ⟨(h.change ht).tableLaw ht, h.flightLaw hfl, h.form hfl.2.2 hp⟩
  exact leaseLaw_iff.2 ⟨htable, hform⟩

theorem Events.noConflict (h : Events s t) (ht : TableLaw s) (hs : NoConflict s) : NoConflict t := by
  induction h with
  | refl => exact hs
  | tail hst h ih => exact (h.change (Events.tableLaw hst ht)).noConflict ih

theorem Events.ownRangesApart (h : Events s t) (ht : TableLaw s) (hs : OwnRangesApart s) : OwnRangesApart t := by
  induction h with
  | refl => exact hs
  | tail hst h ih =>
    have hu := Events.tableLaw hst ht
    exact (h.change hu).ownRangesApart hu.shape ih

theorem Events.queueLaw (h : Events s t) (ht : TableLaw s) (hs : QueueLaw s) : QueueLaw t := by
  induction h with
  | refl => exact hs
  | tail hst h ih => exact (h.change (Events.tableLaw hst ht)).queueLaw ih

theorem Events.contestLaw (h : Events s t) (ht : TableLaw s) (hq : QueueLaw s) (hs : ContestLaw s) : ContestLaw t := by
  induction h with
  | refl => exact hs
  | tail hst h ih => exact (h.change (Events.tableLaw hst ht)).contestLaw (Events.queueLaw hst ht hq) ih

end Sys2Proof.Machine
end

section
/-! SUPPORT. Every command is a sequence of events: the operations on entries, slots and queues, and the lease clock. -/

namespace Sys2Proof.Machine

variable {s t : State}

theorem Event.events (h : Event s t) : Events s t := .single h

theorem Books.events (h : Books s t) : Events s t := .single (.books h)

theorem LeaseEvent.events {e : EntryId} (h : LeaseEvent s t e) : Events s t := .single (.lease h)

/-- An operation applied to each of a list, each time by events. -/
theorem foldl_events {α : Type} {op : State → α → State} (h : ∀ s a, Events s (op s a)) (l : List α) (s : State) :
    Events s (l.foldl op s) := by
  induction l generalizing s with
  | nil => exact .refl
  | cons a l ih => exact (h s a).trans (ih (op s a))

theorem Events.foldl {u : State} (h : Events s u) {α : Type} {op : State → α → State} (hop : ∀ s a, Events s (op s a))
    (l : List α) : Events s (l.foldl op u) := h.trans (foldl_events hop l u)

/-! ## Answers and refusals -/

theorem State.answer_events (s : State) (p : Port) (a : Answer) : Events s (s.answer p a) := (books_answer s p a).events

theorem State.refuse_events (s : State) {p : Port} (hp : (s.port p).state = .opened) (c : RefusalCode) (place : FaultPlace) :
    Events s (s.refuse p c place) := (books_refuse s (by simp [hp]) c place).events

theorem State.complete_events (s : State) (code : BitVec 4) (r : CmdResult) : Events s (s.complete code r) :=
  (books_complete s code r).events

/-- An operation whose events are followed by the answer DONE. -/
theorem Events.done (h : Events s t) (p : Port) : Events s (t.done p) := h.trans (t.answer_events p _)

theorem Events.doneWord (h : Events s t) (p : Port) (w : Word) : Events s (t.doneWord p w) := h.trans (t.answer_events p _)

/-! ## The lease tick (R116) -/

theorem State.tickEntry_events (s : State) (e : EntryId) : Events s (s.tickEntry e) := (LeaseEvent.ticked e).events

/-- A slot that is GRANTED goes on with another counter. -/
theorem books_setGrant {p : Port} {k : SlotNo} {d : Descriptor} {g g' : Grant} (h : s.slot p k = .granted d g)
    (hh : g'.handle = g.handle) (hk : g'.kind = g.kind) : Books s (s.setSlot p k (.granted d g')) :=
  books_setSlot s p k (by simp [grantCore, grantIn, h, hh, hk]) (fun d => ⟨by simp, by simp [h]⟩) fun he => by simp [h] at he

theorem State.tickSlot_events (s : State) (p : Port) (k : SlotNo) : Events s (s.tickSlot p k) := by
  unfold State.tickSlot
  cases h : s.slot p k with
  | empty => exact .refl
  | waiting d => exact .refl
  | denied d c => exact .refl
  | granted d g =>
    dsimp only
    split_ifs
    · exact (LeaseEvent.givenBack p k d g h).events.trans (books_setNotice _ p .lapse).events
    · exact Books.events (books_setGrant h rfl rfl)

theorem State.settleEntry_events (s : State) (e : EntryId) : Events s (s.settleEntry e) := by
  unfold State.settleEntry
  split_ifs
  · exact s.tickEntry_events e
  · exact .refl

theorem State.settleSlot_events (s : State) (p : Port) (k : SlotNo) : Events s (s.settleSlot p k) := by
  unfold State.settleSlot
  split_ifs
  · exact s.tickSlot_events p k
  · exact .refl

theorem State.settleTick_events (s : State) : Events s s.settleTick := by
  unfold State.settleTick
  exact Events.foldl (op := fun s (c : ClaimId) => s.settleSlot c.port c.slot) (foldl_events State.settleEntry_events allEntries s)
    (fun s c => s.settleSlot_events c.port c.slot) allClaims

theorem State.handEntry_events (s : State) (e : EntryId) : Events s (s.handEntry e) := by
  unfold State.handEntry
  split_ifs with hc hd
  · exact .refl
  · exact (LeaseEvent.handed e (by simpa using hc)).events
  · exact s.tickEntry_events e

theorem State.handSlot_events (s : State) (p : Port) (k : SlotNo) : Events s (s.handSlot p k) := by
  unfold State.handSlot
  cases h : s.slot p k with
  | empty => exact .refl
  | waiting d => exact .refl
  | denied d c => exact .refl
  | granted d g =>
    dsimp only
    split_ifs
    · exact Books.events (books_setGrant h rfl rfl)
    · exact s.tickSlot_events p k

theorem State.handTick_events (s : State) : Events s s.handTick := by
  unfold State.handTick
  exact Events.foldl (op := fun s (c : ClaimId) => s.handSlot c.port c.slot) (foldl_events State.handEntry_events allEntries s)
    (fun s c => s.handSlot_events c.port c.slot) allClaims

/-! ## The lease clock (R112 to R117) -/

/-- An update of fields that no law reads, after some events. -/
theorem Events.fields {u : State} (h : Events s u) (he : t.entries = u.entries) (hp : t.ports = u.ports)
    (hq : t.waitQueue = u.waitQueue) (hm : t.memPort = u.memPort) : Events s t :=
  h.tail (.books (books_of_fields he hp hq hm))

theorem State.tickUnderflow_events (s : State) : Events s s.tickUnderflow := by
  have h := s.settleTick_events
  unfold State.tickUnderflow
  dsimp only
  generalize s.settleTick = u at h ⊢
  refine Relation.ReflTransGen.trans ?_ (State.handTick_events _)
  exact Events.fields h rfl rfl rfl rfl

theorem State.pulse_events (s : State) : Events s s.pulse := by
  have hdue : Events s (if s.tickDue then s.tickUnderflow else s) := by
    split_ifs
    · exact s.tickUnderflow_events
    · exact .refl
  unfold State.pulse
  dsimp only
  generalize (if s.tickDue then s.tickUnderflow else s) = u at hdue ⊢
  split_ifs <;> exact Events.fields hdue rfl rfl rfl rfl

theorem State.reloadPrescale_events (s : State) : Events s s.reloadPrescale := Events.fields .refl rfl rfl rfl rfl

theorem State.prescaleUnderflow_events (s : State) : Events s s.prescaleUnderflow := by
  unfold State.prescaleUnderflow
  split_ifs
  · exact s.pulse_events.trans (State.reloadPrescale_events _)
  · exact .refl

theorem State.leaseTick_events (s : State) : Events s s.leaseTick := by
  unfold State.leaseTick
  split_ifs
  · exact .refl
  · exact s.tickUnderflow_events
  · exact s.tickUnderflow_events.trans (State.reloadPrescale_events _)

theorem State.clockCycle_events (s : State) : Events s s.clockCycle := by
  have hdue : Events s (if s.tickDue then s.leaseTick else s) := by
    split_ifs
    · exact s.leaseTick_events
    · exact .refl
  unfold State.clockCycle
  dsimp only
  generalize (if s.tickDue then s.leaseTick else s) = u at hdue ⊢
  split_ifs
  · exact .refl
  · exact Events.fields .refl rfl rfl rfl rfl
  · exact (hdue.trans u.leaseTick_events).trans (State.settleTick_events _)
  · exact hdue.trans u.prescaleUnderflow_events

/-! ## The arbiter (R30 to R32, R47 to R55) -/

theorem State.walkStep_events (s : State) (c : ClaimId) : Events s (s.walkStep c) := by
  unfold State.walkStep
  cases hc : s.claimAt c with
  | none => exact .refl
  | some d =>
    dsimp only
    split_ifs with hg
    · obtain ⟨hfree, -, hroom⟩ := (s.grantable_iff _ _ _).1 hg
      exact (Event.granted c.port c.slot d (.inl (State.claimAt_eq_some.1 hc)) hfree hroom).events
    · exact .refl

theorem State.walk_events (s : State) : Events s s.walk := foldl_events State.walkStep_events s.waitQueue s

/-- A claim of this range may be sent in this slot: the port is OPEN, the slot EMPTY, and the range apart from the port's own
(R27, R29). -/
structure ClaimStands (s : State) (p : Port) (k : SlotNo) (r : PageRange) : Prop where
  serving : (s.port p).state = .opened
  slot : s.slot p k = .empty
  apart : s.overlapsOwn p r = false

/-- A grant to a claim that waits leaves each port's own ranges as they were: the new holding has the range of its claim. -/
theorem State.granted_overlapsOwn {q : Port} {j : SlotNo} {d : Descriptor} {g : Grant} {e : EntryId} {y : Entry}
    (hj : s.slot q j = .waiting d)
    (hy : ∀ p, (y.holdingOf p).isSome = true → (p = q ∧ y.range = d.range) ∨
      (((s.entry e).holdingOf p).isSome = true ∧ y.range = (s.entry e).range))
    {p : Port} {r : PageRange} (h : s.overlapsOwn p r = false) :
    (s.granted e y q j (.granted d g)).overlapsOwn p r = false := by
  by_contra hc
  have hno := mt (s.overlapsOwn_iff p r).2 (by simp [h])
  rcases (State.overlapsOwn_iff _ p r).1 (by simpa using hc) with ⟨f, hf, hr⟩ | ⟨i, d', hd, hr⟩
  · rw [State.granted_entry] at hf hr
    split_ifs at hf hr with hfe
    · rcases hy p hf with ⟨rfl, hrange⟩ | ⟨hold, hrange⟩
      · exact hno (.inr ⟨j, d, by simp [hj, liveClaim], hrange ▸ hr⟩)
      · exact hno (.inl ⟨e, hold, hrange ▸ hr⟩)
    · exact hno (.inl ⟨f, hf, hr⟩)
  · rw [State.granted_slot] at hd
    split_ifs at hd with hi
    · obtain ⟨rfl, rfl⟩ := hi
      obtain rfl : d = d' := by simpa [liveClaim] using hd
      exact hno (.inr ⟨i, d, by simp [hj, liveClaim], hr⟩)
    · exact hno (.inr ⟨i, d', hd, hr⟩)

/-- A grant to a claim that waits leaves a claim that may be sent as it is. -/
theorem ClaimStands.granted {p : Port} {k : SlotNo} {r : PageRange} (h : ClaimStands s p k r) {q : Port} {j : SlotNo}
    {d : Descriptor} (hj : s.slot q j = .waiting d) : ClaimStands (s.grantClaim q j d) p k r := by
  obtain ⟨hserv, hslot, hapart⟩ := h
  have hne : ¬(p = q ∧ k = j) := by
    rintro ⟨rfl, rfl⟩
    rw [hslot] at hj
    cases hj
  have key : ∀ {e y g}, (∀ p, (y.holdingOf p).isSome = true → (p = q ∧ y.range = d.range) ∨
      (((s.entry e).holdingOf p).isSome = true ∧ y.range = (s.entry e).range)) →
      ClaimStands (s.granted e y q j (.granted d g)) p k r := fun {e y g} hy =>
    ⟨(State.granted_marks s e y q j _).state p ▸ hserv, by rw [State.granted_slot, if_neg hne, hslot],
      State.granted_overlapsOwn hj hy hapart⟩
  cases hjt : s.joinTarget q d with
  | some e =>
    rw [State.grantClaim_join j hjt]
    obtain ⟨-, -, -, hrange, hnone⟩ := s.joinTarget_some hjt
    refine key fun p' hp' => ?_
    rw [Entry.holdingOf_insertHolding (x := s.entry e) rfl (by exact hnone)] at hp'
    by_cases hq : p' = q
    · exact .inl ⟨hq, hrange⟩
    · exact .inr ⟨by simpa [Holding.award, hq] using hp', rfl⟩
  | none =>
    cases hlf : s.lowestFree with
    | some e =>
      rw [State.grantClaim_new j hjt hlf]
      refine key fun p' hp' => .inl ⟨?_, rfl⟩
      by_contra hq
      simp [Entry.holdingOf, Entry.allocated, Holding.award, Ne.symm hq] at hp'
    | none =>
      have hid : s.grantClaim q j d = s := by unfold State.grantClaim; simp only [hjt, hlf]
      rw [hid]
      exact ⟨hserv, hslot, hapart⟩

theorem ClaimStands.walkStep {p : Port} {k : SlotNo} {r : PageRange} (h : ClaimStands s p k r) (c : ClaimId) :
    ClaimStands (s.walkStep c) p k r := by
  unfold State.walkStep
  cases hc : s.claimAt c with
  | none => exact h
  | some d =>
    dsimp only
    split_ifs
    · exact h.granted (State.claimAt_eq_some.1 hc)
    · exact h

theorem ClaimStands.walk {p : Port} {k : SlotNo} {r : PageRange} (h : ClaimStands s p k r) : ClaimStands s.walk p k r := by
  unfold State.walk
  generalize s.waitQueue = l
  induction l generalizing s with
  | nil => exact h
  | cons c l ih => exact ih (h.walkStep c)

theorem State.queued_eq (s : State) (p : Port) (k : SlotNo) (x : Slot) (q : List ClaimId) :
    s.queued p k x q = ({ s with waitQueue := q } : State).setSlot p k x := rfl

theorem State.arrive_events {p : Port} {k : SlotNo} {d : Descriptor} (h : ClaimStands s p k d.range) :
    Events s (s.arrive p k d) := by
  obtain ⟨hserv, hslot, hapart⟩ := h.walk
  have hwalk := s.walk_events
  unfold State.arrive
  dsimp only
  generalize s.walk = u at hserv hslot hapart hwalk ⊢
  generalize (if u.entryConflict d || claimConflict (u.claims u.waitQueue) d then DenialCause.conflict
    else DenialCause.tableFull) = cause
  split_ifs with hg hn
  · obtain ⟨hfree, -, hroom⟩ := (u.grantable_iff _ _ _).1 hg
    exact hwalk.tail (.granted p k d (.inr ⟨hslot, hapart, hserv⟩) hfree hroom)
  · refine (hwalk.trans (books_setSlot u p k ?_ (fun d' => ⟨by simp, by simp [hslot]⟩) fun _ _ => hserv).events).trans
      (books_setNotice _ p .grant).events
    rw [hslot]; rfl
  · rw [← State.queued_eq]
    exact Relation.ReflTransGen.tail hwalk (Event.waits p k d hslot hapart hserv)

/-! ## Claim slots (R27, R35, R59 to R62) -/

theorem State.sendClaim_events {p : Port} (hp : (s.port p).state = .opened) (k : SlotNo) (w : Word) (place : FaultPlace) :
    Events s (s.sendClaim p k w place) := by
  unfold State.sendClaim
  dsimp only
  split_ifs with hk hv ho
  · exact s.refuse_events hp _ _
  · exact s.refuse_events hp _ _
  · exact s.refuse_events hp _ _
  · exact (State.arrive_events ⟨hp, by simpa using hk, by simpa [descriptorOf] using ho⟩).done p

/-- A DENIED slot is emptied. -/
theorem books_emptyDenied {p : Port} {k : SlotNo} {d : Descriptor} {c : DenialCause} (h : s.slot p k = .denied d c) :
    Books s (s.setSlot p k .empty) :=
  books_setSlot s p k (by rw [h]; rfl) (fun d => ⟨by simp, by simp [h]⟩) fun he => by simp [h] at he

/-- A slot is emptied by the port itself or by its close. -/
theorem State.vacateSlot_events (s : State) (p : Port) (k : SlotNo) : Events s (s.vacateSlot p k) := by
  unfold State.vacateSlot
  cases h : s.slot p k with
  | empty => exact .refl
  | waiting d => exact (Event.withdrawn p k d h).events
  | granted d g => exact (LeaseEvent.givenBack p k d g h).events
  | denied d c => exact (books_emptyDenied h).events

/-- A cancel empties the slot as the close of the port does. -/
theorem State.cancelSlot_eq {p : Port} {k : SlotNo} (h : s.slot p k ≠ .empty) (place : FaultPlace) :
    s.cancelSlot p k place = (s.vacateSlot p k).done p := by
  unfold State.cancelSlot State.vacateSlot
  cases hk : s.slot p k with
  | empty => exact absurd hk h
  | waiting d => rfl
  | granted d g => rfl
  | denied d c => rfl

theorem State.cancelSlot_events {p : Port} (hp : (s.port p).state = .opened) (k : SlotNo) (place : FaultPlace) :
    Events s (s.cancelSlot p k place) := by
  by_cases h : s.slot p k = .empty
  · unfold State.cancelSlot
    simp only [h]
    exact s.refuse_events hp _ _
  · rw [State.cancelSlot_eq h]
    exact (s.vacateSlot_events p k).done p

theorem State.collectSlot_events {p : Port} (hp : (s.port p).state = .opened) (k : SlotNo) (place : FaultPlace) :
    Events s (s.collectSlot p k place) := by
  unfold State.collectSlot
  cases h : s.slot p k with
  | empty => exact s.refuse_events hp _ _
  | waiting d => exact s.answer_events p _
  | granted d g => exact (LeaseEvent.collected p k d g h).events.doneWord p _
  | denied d c => exact (books_emptyDenied h).events.doneWord p _

/-! ## The holding queue (R84 to R88) -/

/-- Of an OPEN port nothing is asked. -/
theorem recKept_of_not_applied {r r' : PortRec} (hp : r.state = .opened) (hs : r'.state = r.state)
    (hsl : r'.slots = r.slots) (hw : r'.writeBuffer = r.writeBuffer) (hr : r'.read = r.read) : RecKept r r' :=
  ⟨hs, hsl, hw, hr, fun _ => ⟨fun ha => by simp [hs, hp, PortState.applied] at ha, fun hc => by simp [hs, hp] at hc⟩⟩

theorem State.postItem_events {p : Port} (hp : (s.port p).state = .opened) (w : Word) : Events s (s.postItem p w) := by
  unfold State.postItem
  split_ifs
  · rw [State.modPort_eq]
    refine Events.done ?_ p
    exact Books.events (books_setPort s p (recKept_of_not_applied hp rfl rfl rfl rfl))
  · exact s.answer_events p _

/-- A port whose holding queue has an item is not CLOSED, if it keeps what ports keep; its fault is offered. -/
theorem books_offerFault_of_item {p : Port} (hi : (s.port p).holdQueue ≠ []) (c : RefusalCode) (place : FaultPlace) :
    Books s (s.offerFault p c place) := by
  rw [State.offerFault_eq]
  refine books_setPort s p ⟨rfl, rfl, rfl, rfl, fun h => ⟨h.applied, fun hc => absurd (h.applied ?_) hi⟩⟩
  rw [show (s.port p).state = .closed from hc]; rfl

theorem State.applyRelease_events {p : Port} (hi : (s.port p).holdQueue ≠ []) (h : Handle) :
    Events s (s.applyRelease p h) := by
  unfold State.applyRelease
  split_ifs
  · exact (books_offerFault_of_item hi _ _).events
  · cases hst : (s.entry h.entry).holdingState p with
    | none => exact .refl
    | some st =>
      cases st with
      | awarded => exact .refl
      | _ => exact (LeaseEvent.released h.entry p (by simp [hst]) (by simp [hst])).events

theorem State.applyRenew_events {p : Port} (hi : (s.port p).holdQueue ≠ []) (h : Handle) (term : BitVec 16) :
    Events s (s.applyRenew p h term) := by
  have hfault : ∀ c, Events s (s.offerFault p c (.queued h)) := fun c => (books_offerFault_of_item hi c _).events
  have hfresh : ∀ st, (s.entry h.entry).holdingState p = some st → st ≠ .awarded → Events s
      (s.modEntry h.entry fun x => x.modHolding p fun g => g.renew ((s.termsOf p).resolve term).1) :=
    fun st hst hne => (LeaseEvent.renewed h.entry p _ (by simp [hst]) (by simpa [hst] using hne)).events
  unfold State.applyRenew
  dsimp only
  split_ifs
  · exact hfault _
  · cases hst : (s.entry h.entry).holdingState p with
    | none => exact hfault _
    | some st =>
      cases st with
      | awarded => exact hfault _
      | held => exact hfresh _ hst (by simp)
      | overdue => exact hfresh _ hst (by simp)
      | recalled => exact hfault _

theorem State.dropHead_events (s : State) (p : Port) : Events s (s.dropHead p) := by
  unfold State.dropHead
  rw [State.modPort_eq]
  refine Books.events (books_setPort s p ⟨rfl, rfl, rfl, rfl, fun h => ⟨fun ha => ?_, h.closed⟩⟩)
  exact (congrArg List.tail (h.applied ha)).trans rfl

theorem State.applyHead_events (s : State) (p : Port) : Events s (s.applyHead p) := by
  unfold State.applyHead
  cases hq : (s.port p).holdQueue with
  | nil => exact .refl
  | cons i rest =>
    have hi : (s.port p).holdQueue ≠ [] := by simp [hq]
    cases hk : i.kind with
    | release => simpa only [hk] using (State.applyRelease_events hi _).trans (State.dropHead_events _ p)
    | renew => simpa only [hk] using (State.applyRenew_events hi _ _).trans (State.dropHead_events _ p)

end Sys2Proof.Machine
end

section
/-! SUPPORT. Every command is a sequence of events: the pool, the ports, the command engine and the windows; and so every step. -/

namespace Sys2Proof.Machine

variable {s t : State}

/-! ## The pool (R94 to R106) -/

/-- A burst is accepted under an entry in use, in which its port has a holding that is not AWARDED (R96, R98). -/
theorem State.judgeBurst_ok {p : Port} {a : BitVec 22} {n : Nat} {write : Bool} {e : EntryId}
    (h : s.judgeBurst p a n write = .ok e) : (s.entry e).state ≠ .free := by
  unfold State.judgeBurst at h
  split_ifs at h
  cases hc : s.covering p (pageOf a) with
  | none => simp [hc] at h
  | some f =>
    have hf := List.find?_some hc
    simp only [Bool.and_eq_true, bne_iff_ne] at hf
    cases hst : (s.entry f).holdingState p with
    | none => simp [hc, hst] at h
    | some st =>
      cases st with
      | awarded => simp [hc, hst] at h
      | _ =>
        simp only [hc, hst] at h
        split_ifs at h
        exact Except.ok.inj h ▸ hf.1.1

theorem State.takeWrite_events (s : State) (p : Port) (a : BitVec 22) (be : BitVec 4) (ws : List Word) :
    Events s (s.takeWrite p a be ws) := by
  unfold State.takeWrite
  split_ifs with hp
  · exact s.answer_events p _
  · exact s.answer_events p _
  · have hp : (s.port p).state = .opened := by simpa using hp
    cases hj : s.judgeBurst p a ws.length true with
    | error c => exact s.refuse_events hp _ _
    | ok e =>
      refine Events.done ?_ p
      exact (Event.wrote p ⟨a, be, ws, e⟩ hp (State.judgeBurst_ok hj)).events

/-- A read that is not accepted is judged: a CLOSED port has none. -/
theorem State.judgeRead_events {p : Port} (hp : (s.port p).state ≠ .closed ∨ (s.port p).read ≠ none)
    (hn : ∀ r ∈ (s.port p).read, r.stage = .held) (a : BitVec 22) (be len : BitVec 4) :
    Events s (s.judgeRead p a be len) := by
  unfold State.judgeRead
  cases hj : s.judgeBurst p a (len.toNat + 1) false with
  | error c =>
    dsimp only
    rw [State.refuseRead_eq]
    refine (Event.read p (readRefusedPort (s.port p) c a) rfl rfl rfl (fun h => ⟨h.applied, fun hc => ?_⟩) hn
      (by simp [readRefusedPort, readEndedPort])).events
    exact (hp.elim (fun hp => hp hc) fun hp => hp (h.closed hc).2.1).elim
  | ok e => exact (Event.accepted p ⟨a, be, len, .accepted e⟩ e rfl hp hn (State.judgeBurst_ok hj)).events

theorem State.takeRead_events {p : Port} (hr : (s.port p).read = none) (a : BitVec 22) (be len : BitVec 4) :
    Events s (s.takeRead p a be len) := by
  unfold State.takeRead
  split_ifs with hp hw
  · exact s.answer_events p _
  · have hp : (s.port p).state ≠ .closed := by rw [not_not.1 hp]; simp
    refine (s.answer_events p .none).trans (State.judgeRead_events (.inl ?_) ?_ a be len) <;>
      rw [State.answer_eq, State.setPort_port_self]
    · exact hp
    · simp [answered, hr]
  · have hp : (s.port p).state = .opened := not_not.1 hp
    refine (s.answer_events p .none).tail ?_
    rw [State.modPort_eq, State.answer_eq, State.setPort_port_self]
    refine Event.read p _ ?_ ?_ ?_ (fun h => ⟨?_, fun hc => ?_⟩) ?_ ?_ <;> try rw [State.setPort_port_self]
    · exact (State.setPort_port_self s p _ ▸ h).applied
    · rw [show (answered (s.port p) .none).state = .opened from hp] at hc
      cases hc
    · simp [answered, hr]
    · simp

theorem State.heldRead_events {p : Port} {r : PortRead} (hr : (s.port p).read = some r) (hs : r.stage = .held) :
    Events s (s.judgeRead p r.addr r.enables r.len) :=
  State.judgeRead_events (.inr (by simp [hr])) (by simp [hr, hs]) _ _ _

/-- What a port offers is a burst of it, not begun. -/
theorem State.offered_some {p : Port} {b : ActiveBurst} (h : s.offered p = some b) : b.port = p ∧
    ((∃ ws rest, b.kind = .write ws ∧ (s.port p).writeBuffer = ⟨b.addr, b.enables, ws, b.entry⟩ :: rest) ∨
      ∃ len, b.kind = .read len ∧ (s.port p).read = some ⟨b.addr, b.enables, len, .accepted b.entry⟩) := by
  unfold State.offered at h
  cases hw : (s.port p).writeBuffer with
  | cons w rest =>
    obtain rfl : _ = b := by simpa [hw] using h
    exact ⟨rfl, .inl ⟨w.words, rest, rfl, rfl⟩⟩
  | nil =>
    cases hr : (s.port p).read with
    | none => simp [hw, hr] at h
    | some r =>
      cases hst : r.stage with
      | held => simp [hw, hr, hst] at h
      | accepted e =>
        obtain rfl : _ = b := by simpa [hw, hr, hst] using h
        exact ⟨rfl, .inr ⟨r.len, rfl, by rw [← hst]⟩⟩

theorem State.startBurst_events (s : State) : Events s s.startBurst := by
  unfold State.startBurst
  split_ifs
  · exact .refl
  · cases hf : s.rotation.findSome? s.offered with
    | none => exact .refl
    | some b =>
      obtain ⟨p, -, hb⟩ := List.exists_of_findSome?_eq_some hf
      obtain ⟨hp, hoff⟩ := State.offered_some hb
      refine Event.events (.carries rfl rfl rfl fun _ => ?_)
      rw [activeOffered_iff (b := b) rfl]
      exact hp ▸ hoff

/-- A word access touches the pool alone, and the burst goes on as it is but for its words. -/
theorem State.endWord_frame (s : State) (b : ActiveBurst) (m : MemAnswer) :
    (s.endWord b m).1 = { s with poolData := (s.endWord b m).1.poolData, poolParity := (s.endWord b m).1.poolParity } ∧
    (s.endWord b m).2 = { b with done := (s.endWord b m).2.done, got := (s.endWord b m).2.got,
                                 parityError := (s.endWord b m).2.parityError } := by
  unfold State.endWord
  cases b.kind with
  | read len => exact ⟨rfl, rfl⟩
  | write ws =>
    refine ⟨?_, rfl⟩
    dsimp only
    cases ws[b.done]? with
    | none => rfl
    | some w =>
      obtain ⟨-, hf, -⟩ := s.writeWord_stores (byteAddr b.wordAddr) b.enables w
      exact hf

theorem State.wordReady_events (s : State) (m : MemAnswer) : Events s (s.wordReady m) := by
  unfold State.wordReady
  cases hb : s.memPort with
  | none => exact .refl
  | some b =>
    obtain ⟨ht, hc⟩ := s.endWord_frame b m
    generalize hw : s.endWord b m = w at ht hc
    obtain ⟨u, c⟩ := w
    simp only [hw]
    dsimp only at ht hc
    have hmem : u.memPort = some b := by rw [ht]; exact hb
    split_ifs
    · refine (Event.carries (by rw [ht]) (by rw [ht]) (by rw [ht]) fun ha => ?_).events
      have hport : ∀ q, State.port { u with memPort := some c } q = s.port q := fun q => by rw [ht]; rfl
      rw [activeOffered_iff (b := c) rfl]
      simp only [hport]
      rw [hc]
      exact (activeOffered_iff hb).1 ha
    · exact (Events.fields .refl (by rw [ht]) (by rw [ht]) (by rw [ht]) (by rw [ht])).tail (.finished b c hmem hc)

/-! ## Opening and closing ports (R123 to R132) -/

theorem PortState.of_not_applied {st : PortState} (h : st.applied = false) :
    st.vacant = false ∧ st.gone = false ∧ st ≠ .closed := by
  cases st with
  | closed => cases h
  | opened => exact ⟨rfl, rfl, by simp⟩
  | closing c st => cases st <;> simp_all [PortState.applied, PortState.vacant, PortState.gone]

/-- A port comes to a state in which nothing is asked of it: OPEN, or in the second stage of a close. -/
theorem books_serving (s : State) {p : Port} {r : PortRec} {st : PortState} (hr : r = { s.port p with state := st })
    (ha : st.applied = false) : Books s (s.setPort p r) := by
  obtain ⟨hv, hg, hc⟩ := PortState.of_not_applied ha
  have hst : r.state = st := congrArg PortRec.state hr
  refine books_setPort_state s p (by rw [hr]) (by rw [hr]) (by rw [hr]) (fun _ => ⟨fun h => ?_, fun h => ?_⟩) (fun h => ?_)
    fun h => ?_
  · rw [hst, ha] at h; cases h
  · exact absurd (hst ▸ h) hc
  · rw [hst, hv] at h; cases h
  · rw [hst, hg] at h; cases h

theorem State.reopen_events (s : State) : Events s s.reopen := by
  unfold State.reopen
  split_ifs with h
  · exact Books.events (books_serving s rfl rfl)
  · exact .refl

/-- An OPEN port begins to close (R127). -/
theorem State.startClose_events (s : State) (p : Port) (c : CloseCause) : Events s (s.startClose p c) :=
  Books.events (books_serving s rfl rfl)

/-- A port comes to another stage of its close, or to another cause, whose conditions it meets. -/
theorem books_closing {p : Port} {c c' : CloseCause} {st st' : CloseStage} {r : PortRec}
    (hst : (s.port p).state = .closing c st) (hr : r = { s.port p with state := .closing c' st' })
    (ha : st' = .third ∨ st' = .fourth ∨ st' = .fifth → PortForm (s.port p) → (s.port p).holdQueue = [])
    (hv : st' = .fourth ∨ st' = .fifth → (st = .fourth ∨ st = .fifth) ∨ ∀ k, s.slot p k = .empty)
    (hg : st' = .fifth → st = .fifth ∨ ∀ e, (s.entry e).holdingOf p = none) : Books s (s.setPort p r) := by
  subst hr
  refine books_setPort_state s p rfl rfl rfl (fun h => ⟨fun h' => ?_, fun hc => PortState.noConfusion hc⟩) (fun h' => ?_) fun h' => ?_
  · exact ha (by simpa [PortState.applied, or_assoc] using h') h
  · rw [hst]
    exact (hv (by simpa [PortState.vacant] using h')).imp_left fun h => by simpa [PortState.vacant] using h
  · rw [hst]
    exact (hg (by simpa [PortState.gone] using h')).imp_left fun h => by simpa [PortState.gone] using h

theorem State.lineAssert_events (s : State) (p : Port) :
    Events s (match (s.port p).state with
      | .closed => s.modPort p fun r => { r with lineHeld := true, answer := .none }
      | .opened => (s.modPort p fun r => { r with lineHeld := true, answer := .none }).startClose p .line
      | .closing _ st => (s.modPort p fun r => { r with lineHeld := true, answer := .none }).modPort p fun r =>
          { r with state := .closing .line st }) := by
  have hline : Events s (s.modPort p fun r => { r with lineHeld := true, answer := .none }) :=
    Books.events (books_setPort s p ⟨rfl, rfl, rfl, rfl, fun h => ⟨h.applied, h.closed⟩⟩)
  have hstate : ((s.modPort p fun r => { r with lineHeld := true, answer := .none }).port p).state = (s.port p).state := by
    rw [State.modPort_port_self]
  have hqueue : PortForm (((s.modPort p fun r => { r with lineHeld := true, answer := .none }).port p)) →
      PortForm (s.port p) := fun h => by
    rw [State.modPort_port_self] at h
    exact ⟨h.applied, h.closed⟩
  generalize (s.modPort p fun r => { r with lineHeld := true, answer := .none }) = u at hline hstate hqueue ⊢
  cases hst : (s.port p).state with
  | closed => exact hline
  | opened => exact hline.trans (State.startClose_events _ p _)
  | closing c st =>
    refine hline.trans (Books.events (books_closing (hstate.trans hst) rfl (fun h hf => hf.applied ?_) .inl .inl))
    rw [hstate, hst]
    simpa [PortState.applied, or_assoc] using h

theorem State.lineRelease_events (s : State) (p : Port) :
    Events s (if p = 0 then (s.modPort p fun r => { r with lineHeld := false }).reopen
      else s.modPort p fun r => { r with lineHeld := false }) := by
  have hline : Events s (s.modPort p fun r => { r with lineHeld := false }) :=
    Books.events (books_setPort s p ⟨rfl, rfl, rfl, rfl, fun h => ⟨h.applied, h.closed⟩⟩)
  split_ifs
  · exact hline.trans (State.reopen_events _)
  · exact hline

/-- Of a stage that is under way: the port's state. -/
theorem State.closeStage_eq_some {p : Port} {st : CloseStage} :
    s.closeStage p = some st ↔ ∃ c, (s.port p).state = .closing c st := by
  unfold State.closeStage
  cases (s.port p).state <;> simp

/-- The port at which a close goes on to its next stage. -/
theorem State.enterStage_eq {p : Port} {c : CloseCause} {st st' : CloseStage} (h : (s.port p).state = .closing c st) :
    s.enterStage p st' = s.setPort p { s.port p with state := .closing c st' } := by
  unfold State.enterStage
  rw [State.modPort_eq]
  simp only [h]

/-! ### The second stage -/

theorem State.applyRelease_port (s : State) (p : Port) (h : Handle) : ((s.applyRelease p h).port p).state = (s.port p).state ∧
    ((s.applyRelease p h).port p).holdQueue = (s.port p).holdQueue := by
  have hrem : ∀ e, ((s.removeHolding e p).port p).state = (s.port p).state ∧
      ((s.removeHolding e p).port p).holdQueue = (s.port p).holdQueue := fun e => by
    obtain ⟨m, hm⟩ := (turns_of_losesHolding (s.removeHolding_loses e p)).ports p
    rw [hm]; exact ⟨rfl, rfl⟩
  unfold State.applyRelease
  split_ifs
  · rw [State.offerFault_eq, State.setPort_port_self]; exact ⟨rfl, rfl⟩
  · cases (s.entry h.entry).holdingState p with
    | none => exact ⟨rfl, rfl⟩
    | some st =>
      cases st with
      | awarded => exact ⟨rfl, rfl⟩
      | _ => exact hrem _

theorem State.applyRenew_port (s : State) (p : Port) (h : Handle) (term : BitVec 16) :
    ((s.applyRenew p h term).port p).state = (s.port p).state ∧
    ((s.applyRenew p h term).port p).holdQueue = (s.port p).holdQueue := by
  have hfault : ∀ c, ((s.offerFault p c (.queued h)).port p).state = (s.port p).state ∧
      ((s.offerFault p c (.queued h)).port p).holdQueue = (s.port p).holdQueue := fun c => by
    rw [State.offerFault_eq, State.setPort_port_self]; exact ⟨rfl, rfl⟩
  unfold State.applyRenew
  dsimp only
  split_ifs
  · exact hfault _
  · cases (s.entry h.entry).holdingState p with
    | none => exact hfault _
    | some st =>
      cases st with
      | awarded => exact hfault _
      | held => exact ⟨rfl, rfl⟩
      | overdue => exact ⟨rfl, rfl⟩
      | recalled => exact hfault _

theorem State.dropHead_port (s : State) (p : Port) : ((s.dropHead p).port p).state = (s.port p).state ∧
    ((s.dropHead p).port p).holdQueue = (s.port p).holdQueue.tail := by
  unfold State.dropHead
  rw [State.modPort_port_self]; exact ⟨rfl, rfl⟩

/-- An item applied leaves the queue, and the port's state as it is. -/
theorem State.applyHead_port (s : State) (p : Port) : ((s.applyHead p).port p).state = (s.port p).state ∧
    ((s.applyHead p).port p).holdQueue = (s.port p).holdQueue.tail := by
  unfold State.applyHead
  cases hq : (s.port p).holdQueue with
  | nil => exact ⟨rfl, hq⟩
  | cons i rest =>
    cases hk : i.kind with
    | release =>
      obtain ⟨h1, h2⟩ := s.applyRelease_port p i.handle
      obtain ⟨h3, h4⟩ := (s.applyRelease p i.handle).dropHead_port p
      simp only [hk]
      exact ⟨h3.trans h1, by rw [h4, h2, hq]⟩
    | renew =>
      obtain ⟨h1, h2⟩ := s.applyRenew_port p i.handle i.term
      obtain ⟨h3, h4⟩ := (s.applyRenew p i.handle i.term).dropHead_port p
      simp only [hk]
      exact ⟨h3.trans h1, by rw [h4, h2, hq]⟩

theorem foldl_applyHead {α : Type} (p : Port) (l : List α) (s : State) :
    ((l.foldl (fun s _ => s.applyHead p) s).port p).state = (s.port p).state ∧
    ((l.foldl (fun s _ => s.applyHead p) s).port p).holdQueue = (s.port p).holdQueue.drop l.length := by
  induction l generalizing s with
  | nil => exact ⟨rfl, rfl⟩
  | cons a l ih =>
    obtain ⟨h1, h2⟩ := s.applyHead_port p
    obtain ⟨h3, h4⟩ := ih (s.applyHead p)
    exact ⟨h3.trans h1, by rw [List.foldl_cons, h4, h2, List.drop_tail, List.length_cons]⟩

/-- The holding queue is applied to empty (R128). -/
theorem State.applyQueue_port (s : State) (p : Port) : ((s.applyQueue p).port p).state = (s.port p).state ∧
    ((s.applyQueue p).port p).holdQueue = [] := by
  obtain ⟨h1, h2⟩ := foldl_applyHead p (s.port p).holdQueue s
  exact ⟨h1, h2.trans (List.drop_length ..)⟩

theorem State.applyQueue_events (s : State) (p : Port) : Events s (s.applyQueue p) :=
  foldl_events (fun s _ => s.applyHead_events p) _ s

theorem State.secondStage_events {p : Port} (h : s.closeStage p = some .second) :
    Events s ((s.applyQueue p).enterStage p .third) := by
  obtain ⟨c, hst⟩ := State.closeStage_eq_some.1 h
  obtain ⟨hstate, hqueue⟩ := s.applyQueue_port p
  have hev := s.applyQueue_events p
  generalize s.applyQueue p = u at hstate hqueue hev ⊢
  rw [State.enterStage_eq (hstate.trans hst)]
  exact hev.trans (Books.events (books_closing (hstate.trans hst) rfl (fun _ _ => hqueue) (fun h => by simp at h) fun h => by
    cases h))

/-! ### The third stage -/

/-- The slot that a close deals with becomes EMPTY; every other slot, and the ports' states, stay. -/
theorem State.vacateSlot_slot (s : State) (p : Port) (k : SlotNo) :
    (∀ q, ((s.vacateSlot p k).port q).state = (s.port q).state) ∧
    ∀ q j, (s.vacateSlot p k).slot q j = if q = p ∧ j = k then .empty else s.slot q j := by
  unfold State.vacateSlot
  cases h : s.slot p k with
  | empty =>
    refine ⟨fun _ => rfl, fun q j => ?_⟩
    dsimp only
    split_ifs with hc
    · rw [hc.1, hc.2, h]
    · rfl
  | waiting d =>
    obtain ⟨-, -, hstates, hslots, -⟩ := State.withdraw_withdrawn h
    exact ⟨hstates, hslots⟩
  | granted d g =>
    have ht := turns_of_givesBack (s.giveBack_gives p k g)
    refine ⟨fun q => ?_, fun q j => (ht.slots q j).trans ?_⟩
    · obtain ⟨m, hm⟩ := ht.ports q
      obtain ⟨sl, hsl⟩ := slotsBut_portsBut s p k .empty q
      rw [hm, hsl]; rfl
    · rw [← State.setPort_port, ← State.setSlot_eq, ← State.setSlot_slot]; rfl
  | denied d c => exact ⟨(portsMarked_setSlot s p k .empty).state, fun q j => s.setSlot_slot p q k j .empty⟩

theorem foldl_vacateSlot (p : Port) (l : List SlotNo) (s : State) :
    (∀ q, ((l.foldl (fun s k => s.vacateSlot p k) s).port q).state = (s.port q).state) ∧
    ∀ q j, (l.foldl (fun s k => s.vacateSlot p k) s).slot q j = if q = p ∧ j ∈ l then .empty else s.slot q j := by
  induction l generalizing s with
  | nil => exact ⟨fun _ => rfl, fun q j => by simp⟩
  | cons k l ih =>
    obtain ⟨h1, h2⟩ := s.vacateSlot_slot p k
    obtain ⟨h3, h4⟩ := ih (s.vacateSlot p k)
    refine ⟨fun q => (h3 q).trans (h1 q), fun q j => ?_⟩
    rw [List.foldl_cons, h4, h2]
    by_cases hq : q = p <;> by_cases hj : j ∈ l <;> by_cases hk : j = k <;> simp [hq, hj, hk]

theorem State.thirdStage_events {p : Port} (h : s.closeStage p = some .third) :
    Events s ((allSlots.foldl (fun s k => s.vacateSlot p k) s).enterStage p .fourth) := by
  obtain ⟨c, hst⟩ := State.closeStage_eq_some.1 h
  obtain ⟨hstate, hslot⟩ := foldl_vacateSlot p allSlots s
  have hev := foldl_events (op := fun s k => s.vacateSlot p k) (fun s k => s.vacateSlot_events p k) allSlots s
  generalize allSlots.foldl (fun s k => s.vacateSlot p k) s = u at hstate hslot hev ⊢
  have hst' := (hstate p).trans hst
  rw [State.enterStage_eq hst']
  refine hev.trans (Books.events (books_closing hst' rfl (fun _ hf => hf.applied (by rw [hst']; rfl)) (fun _ => .inr ?_)
    fun h => by cases h))
  exact fun k => (hslot p k).trans (if_pos ⟨rfl, List.mem_finRange k⟩)

/-! ### The fourth stage -/

/-- An entry that the close of a port has dealt with: turned by `vacatedEntry`, with notices at some ports. -/
theorem State.vacateEntry_turns_vacated (s : State) (p : Port) (e : EntryId) :
    Turns s (s.vacateEntry p e) e (vacatedEntry p s.orphanTicks (s.entry e)) s.port := by
  cases hst : (s.entry e).holdingState p with
  | none =>
    have hs : s.vacateEntry p e = s := by unfold State.vacateEntry; simp only [hst]
    have hx : vacatedEntry p s.orphanTicks (s.entry e) = s.entry e := by unfold vacatedEntry; simp only [hst]
    rw [hs, hx]
    exact ⟨rfl, fun _ _ => rfl, rfl, fun q => ⟨0#8, (flagsSet_zero _).symm⟩⟩
  | some st =>
    have h := s.vacateEntry_turns p e (by simp [hst])
    unfold lostEntry leftEntry at h
    unfold vacatedEntry
    simp only [hst, Option.some.injEq, ne_eq, ite_not] at h ⊢
    exact h

theorem vacatedEntry_holdingOf (p : Port) (ticks : BitVec 16) (x : Entry) :
    (vacatedEntry p ticks x).holdingOf p = none := by
  unfold vacatedEntry
  cases hst : x.holdingState p with
  | none => exact Entry.holdingState_eq_none.1 hst
  | some st =>
    dsimp only
    split_ifs with hx hn hf
    · rfl
    · simpa using Entry.holdingOf_heldByOthers (x := x) (y := { x with holdings := heldByOthers x p }) rfl p
    · rfl
    · rfl

/-- The close of a port is in its fourth stage, and events have led from the one state to the other. -/
structure Vacating (p : Port) (s t : State) : Prop where
  events : Events s t
  state : (t.port p).state = (s.port p).state
  ticks : t.orphanTicks = s.orphanTicks

/-- Every entry is dealt with by Table 30 (R129, R130). -/
theorem State.vacateEntries {p : Port} (h : s.closeStage p = some .fourth) :
    Vacating p s (allEntries.foldl (fun s e => s.vacateEntry p e) s) ∧
    ∀ e, (allEntries.foldl (fun s e => s.vacateEntry p e) s).entry e = vacatedEntry p s.orphanTicks (s.entry e) := by
  refine foldl_allEntries (op := fun s e => s.vacateEntry p e) (R := Vacating p) (fun u e hu => ?_) ⟨.refl, rfl, rfl⟩
  have ht := u.vacateEntry_turns_vacated p e
  obtain ⟨c, hst⟩ := State.closeStage_eq_some.1 h
  refine ⟨⟨hu.events.trans ?_, ?_, ?_⟩, by rw [ht.entry, hu.ticks], ht.others⟩
  · by_cases hp : (u.entry e).holdingState p = none
    · have hs : u.vacateEntry p e = u := by unfold State.vacateEntry; simp only [hp]
      rw [hs]
    · exact (LeaseEvent.vacated e p (State.closeStage_eq_some.2 ⟨c, hu.state.trans hst⟩) hp).events
  · obtain ⟨m, hm⟩ := ht.ports p
    rw [hm]; exact hu.state
  · rw [ht.frame]; exact hu.ticks

theorem State.fourthStage_events {p : Port} (h : s.closeStage p = some .fourth) :
    Events s ((allEntries.foldl (fun s e => s.vacateEntry p e) s).enterStage p .fifth) := by
  obtain ⟨⟨hev, hstate, -⟩, hent⟩ := State.vacateEntries h
  obtain ⟨c, hst⟩ := State.closeStage_eq_some.1 h
  generalize allEntries.foldl (fun s e => s.vacateEntry p e) s = u at hev hstate hent ⊢
  have hst' := hstate.trans hst
  rw [State.enterStage_eq hst']
  refine hev.trans (Books.events (books_closing hst' rfl (fun _ hf => hf.applied (by rw [hst']; rfl)) (fun _ => .inl (.inl rfl))
    fun _ => .inr fun e => ?_))
  rw [hent]
  exact vacatedEntry_holdingOf _ _ _

/-! ### The sixth stage -/

/-- The port CLOSED, with a CLOSE_PORT that waits for it completed (R132, R139). -/
def State.shutDown (s : State) (p : Port) : State :=
  if closeAwaited s p = true then (s.modPort p PortRec.shut).complete Cmd.closePort .ok else s.modPort p PortRec.shut

theorem State.shutPort_eq (s : State) (p : Port) :
    s.shutPort p = if p = 0 then ({ s.shutDown p with supView := none } : State).reopen else s.shutDown p := by
  unfold State.shutPort State.shutDown closeAwaited
  cases s.engine with
  | none => rfl
  | some c =>
    have hcl : (Option.any (fun c => c.code == 2 && argPort c.arg == p) (some c) = true) ↔ c.closes p = true := Iff.rfl
    simp only [hcl]
    by_cases hc : c.closes p = true
    · have hcode : c.code = Cmd.closePort := by
        simp only [Command.closes, Bool.and_eq_true, beq_iff_eq] at hc
        exact hc.1
      simp only [hc, if_true, hcode]
    · simp only [hc]; rfl

theorem State.sixthStage_events {p : Port} (h : s.closeStage p = some .fifth) (hd : s.drained p = true) :
    Events s (s.shutPort p) := by
  obtain ⟨c, hst⟩ := State.closeStage_eq_some.1 h
  simp only [State.drained, Bool.and_eq_true, List.isEmpty_iff, Option.isNone_iff_eq_none] at hd
  have hshut : Events s (s.modPort p PortRec.shut) := by
    rw [State.modPort_eq]
    refine Books.events (books_setPort_state s p rfl rfl rfl (fun hf => ⟨fun _ => hf.applied (by rw [hst]; rfl), fun _ =>
      ⟨hd.1, hd.2, rfl, rfl, rfl, rfl⟩⟩) (fun _ => .inl (by rw [hst]; rfl)) fun _ => .inl (by rw [hst]; rfl))
  have hcomp : Events s (s.shutDown p) := by
    unfold State.shutDown
    split_ifs
    · exact hshut.trans (State.complete_events _ _ _)
    · exact hshut
  rw [State.shutPort_eq]
  split_ifs
  · refine Relation.ReflTransGen.trans ?_ (State.reopen_events _)
    exact Events.fields hcomp rfl rfl rfl rfl
  · exact hcomp

end Sys2Proof.Machine
end

section
/-! SUPPORT. Every step is a sequence of events: the command engine, the windows, and the commands themselves. -/

namespace Sys2Proof.Machine

variable {s t : State}

/-! ## The command engine (R124, R125, R138 to R149) -/

theorem State.cmdOpenPort_events (s : State) (arg : Word) : Events s (s.cmdOpenPort arg) := by
  unfold State.cmdOpenPort
  split_ifs
  · exact s.complete_events _ _
  · exact s.complete_events _ _
  · refine Relation.ReflTransGen.trans ?_ (State.complete_events _ _ _)
    exact Books.events (books_serving s rfl rfl)

theorem State.cmdClosePort_events (s : State) (arg : Word) : Events s (s.cmdClosePort arg) := by
  unfold State.cmdClosePort
  split_ifs
  · exact s.complete_events _ _
  · exact s.complete_events _ _
  · exact s.startClose_events _ _

theorem State.cmdRecall_events (s : State) (arg : Word) : Events s (s.cmdRecall arg) := by
  unfold State.cmdRecall
  dsimp only
  split_ifs with _ hl
  · exact s.complete_events _ _
  · exact s.complete_events _ _
  · exact (LeaseEvent.recalled _ (not_not.1 hl)).events.trans (State.complete_events _ _ _)

theorem State.cmdRevoke_events (s : State) (arg : Word) : Events s (s.cmdRevoke arg) := by
  unfold State.cmdRevoke
  dsimp only
  split_ifs with _ hl
  · exact s.complete_events _ _
  · exact s.complete_events _ _
  · have hn := books_noticeAll s (((s.entry (handleOf arg).entry).holdings.filter Holding.collected).map Holding.port) .revoke
    refine hn.events.trans (LeaseEvent.events (LeaseEvent.revoked _ ?_))
    rw [hn.entry]
    exact not_not.1 hl

theorem State.lowestEmpty_some {p : Port} {k : SlotNo} (h : s.lowestEmpty p = some k) : s.slot p k = .empty := by
  simpa using List.find?_some h

theorem State.cmdAdopt_events (s : State) (arg : Word) : Events s (s.cmdAdopt arg) := by
  unfold State.cmdAdopt
  dsimp only
  cases hk : s.lowestEmpty (argPort arg) with
  | none =>
    split_ifs <;> exact s.complete_events _ _
  | some k =>
    split_ifs with hc hx hp ho
    · exact s.complete_events _ _
    · exact s.complete_events _ _
    · exact s.complete_events _ _
    · exact s.complete_events _ _
    · refine (Event.adopted (handleOf arg) (argPort arg) k ?_ ?_ (not_not.1 hp) (State.lowestEmpty_some hk)
        (by simpa using ho)).events
      · simpa [State.current] using hc
      · exact not_not.1 fun hn => hx (.inl hn)

theorem State.cmdRetire_events (s : State) (arg : Word) : Events s (s.cmdRetire arg) := by
  unfold State.cmdRetire
  dsimp only
  split_ifs with _ ho
  · exact s.complete_events _ _
  · exact s.complete_events _ _
  · exact (LeaseEvent.retired _ (not_not.1 ho)).events

theorem State.cmdSetPool_events (s : State) (arg : Word) : Events s (s.cmdSetPool arg) := by
  unfold State.cmdSetPool
  split_ifs
  · exact s.complete_events _ _
  · exact s.complete_events _ _
  · refine Relation.ReflTransGen.trans ?_ (State.complete_events _ _ _)
    exact Events.fields .refl rfl rfl rfl rfl

theorem State.cmdPartReset_events (s : State) : Events s s.cmdPartReset := Event.reset.events

theorem State.runCommand_events (code : BitVec 4) (s : State) (arg : Word) : Events s (s.runCommand code arg) := by
  unfold State.runCommand
  split_ifs
  · exact s.cmdOpenPort_events arg
  · exact s.cmdClosePort_events arg
  · exact s.cmdRecall_events arg
  · exact s.cmdRevoke_events arg
  · exact s.cmdAdopt_events arg
  · exact s.cmdRetire_events arg
  · exact s.cmdSetPool_events arg
  · exact s.cmdPartReset_events
  · exact s.complete_events _ _

theorem State.startCommand_events {p : Port} (hp : (s.port p).state = .opened) (code : BitVec 4) (place : FaultPlace)
    {act : State → Word → State} (h : ∀ s arg, Events s (act s arg)) : Events s (s.startCommand p code place act) := by
  unfold State.startCommand
  cases s.engine with
  | some c => exact s.refuse_events hp _ _
  | none =>
    refine Events.done (Relation.ReflTransGen.trans ?_ (h _ _)) p
    exact Events.fields .refl rfl rfl rfl rfl

/-! ## The windows (R161) -/

/-- The word at an address of the map. -/
theorem rowAt_portStatus : inSupervisorWindow Reg.portStatus.addr = false ∧
    ∃ m, rowAt Reg.portStatus.addr = some m ∧ m.reg = .portStatus ∧ m.readable = true := by
  refine ⟨by decide, _, rfl, rfl, rfl⟩

/-- The read of PORT_STATUS is permitted whatever the port's state (R121, R161). -/
theorem State.judgeAccess_status (s : State) (p : Port) :
    s.judgeAccess p 0 Reg.portStatus.addr false = .ok .portStatus := by
  obtain ⟨hw, m, hm, hr, hread⟩ := rowAt_portStatus
  simp [State.judgeAccess, hw, hm, hr, hread]

/-- A port that is not OPEN reaches PORT_STATUS by a read alone; its other transactions are refused with PORT_CLOSED. -/
theorem State.judgeAccess_closed {p : Port} (hp : (s.port p).state ≠ .opened) (len : BitVec 4) (a : BitVec 22) (write : Bool) :
    s.judgeAccess p len a write = .error .portClosed ∨
    (write = false ∧ len = 0 ∧ a = Reg.portStatus.addr ∧ s.judgeAccess p len a write = .ok .portStatus) := by
  by_cases hs : write = false ∧ len = 0 ∧ a = Reg.portStatus.addr
  · obtain ⟨rfl, rfl, rfl⟩ := hs
    exact .inr ⟨rfl, rfl, rfl, s.judgeAccess_status p⟩
  · left
    have : (!write && len == 0 && a == Reg.portStatus.addr) = false := by
      by_contra hc
      simp only [Bool.not_eq_false, Bool.and_eq_true, Bool.not_eq_true', beq_iff_eq] at hc
      exact hs ⟨hc.1.1, hc.1.2, hc.2⟩
    unfold State.judgeAccess
    dsimp only
    rw [this, if_pos ⟨hp, rfl⟩]

theorem slotCollect_addr_ne : ∀ k, (Reg.slotCollect k).addr ≠ Reg.portStatus.addr := by decide

theorem State.transact_events {p : Port} {f : State → State} (h : s.takes p = true → Events s (f s)) :
    Events s (s.transact p f) := by
  unfold State.transact
  split_ifs with hp
  · exact h hp
  · exact .refl

/-- A window transaction is refused, or an OPEN port's is given to its word, or PORT_STATUS is read. -/
theorem State.access_events {p : Port} {len : BitVec 4} {a : BitVec 22} {write : Bool} {own : Reg → State → State}
    (h : (s.port p).state = .opened → ∀ r, Events s (own r s))
    (hs : write = false → a = Reg.portStatus.addr → Events s (own .portStatus s)) :
    Events s (s.access p len a write own) := by
  refine State.transact_events fun _ => ?_
  by_cases hp : (s.port p).state = .opened
  · cases hj : s.judgeAccess p len a write with
    | ok r => exact h hp r
    | error c =>
      cases c with
      | portClosed => exact s.answer_events p _
      | _ => exact s.refuse_events hp _ _
  · rcases State.judgeAccess_closed hp len a write with hj | ⟨hw, -, ha, hj⟩
    · simp only [hj]
      exact s.answer_events p _
    · simp only [hj]
      exact hs hw ha

/-- A window write of an OPEN port. -/
theorem State.access_write_events {p : Port} {len : BitVec 4} {a : BitVec 22} {own : Reg → State → State}
    (h : (s.port p).state = .opened → ∀ r, Events s (own r s)) : Events s (s.access p len a true own) :=
  State.access_events h fun hw => by cases hw

theorem State.writeAt_events {p : Port} {len : BitVec 4} {r : Reg} {own : State → State}
    (h : (s.port p).state = .opened → Events s (own s)) : Events s (s.writeAt p len r own) :=
  State.access_write_events fun hp _ => h hp

/-- A write that changes a word of an OPEN port's own record. -/
theorem events_ownWord {p : Port} {r : PortRec} (hp : (s.port p).state = .opened) (hs : r.state = (s.port p).state)
    (hsl : r.slots = (s.port p).slots) (hw : r.writeBuffer = (s.port p).writeBuffer) (hr : r.read = (s.port p).read) :
    Events s ((s.setPort p r).done p) :=
  Events.done (Books.events (books_setPort s p (recKept_of_not_applied hp hs hsl hw hr))) p

theorem State.acknowledge_events {p : Port} (hp : (s.port p).state = .opened) (w : Word) : Events s (s.acknowledge p w) := by
  unfold State.acknowledge
  rw [State.modPort_eq]
  exact events_ownWord hp rfl rfl rfl rfl

theorem State.setEnables_events {p : Port} (hp : (s.port p).state = .opened) (w : Word) : Events s (s.setEnables p w) := by
  unfold State.setEnables
  rw [State.modPort_eq]
  exact events_ownWord hp rfl rfl rfl rfl

theorem State.clearFault_events {p : Port} (hp : (s.port p).state = .opened) : Events s (s.clearFault p) := by
  unfold State.clearFault
  rw [State.modPort_eq]
  exact events_ownWord hp rfl rfl rfl rfl

theorem State.takeView_events {p : Port} (hp : (s.port p).state = .opened) (w : Word) : Events s (s.takeView p w) := by
  unfold State.takeView
  dsimp only
  rw [State.modPort_eq]
  exact events_ownWord hp rfl rfl rfl rfl

theorem State.writeStaging_events {p : Port} (hp : (s.port p).state = .opened) (k : SlotNo) (w : Word) :
    Events s (s.writeStaging p k w) := by
  unfold State.writeStaging
  rw [State.modPort_eq]
  exact events_ownWord hp rfl rfl rfl rfl

/-- A write that changes a word of the supervisor window, and is answered DONE. -/
theorem events_ownField (p : Port) {u : State} (he : u.entries = s.entries) (hp : u.ports = s.ports)
    (hq : u.waitQueue = s.waitQueue) (hm : u.memPort = s.memPort) : Events s (u.done p) :=
  (Events.fields .refl he hp hq hm).done p

theorem State.takeSupView_events (s : State) (p : Port) (w : Word) : Events s (s.takeSupView p w) :=
  events_ownField p rfl rfl rfl rfl

theorem State.writeTickEnable_events (s : State) (p : Port) (w : Word) : Events s (s.writeTickEnable p w) :=
  events_ownField p rfl rfl rfl rfl

theorem State.writeReg_events {p : Port} (hp : (s.port p).state = .opened) (a : BitVec 22) (w : Word) (r : Reg) :
    Events s (s.writeReg p a w r) := by
  cases r with
  | noticePending => exact State.acknowledge_events hp w
  | noticeEnable => exact State.setEnables_events hp w
  | faultClear => exact State.clearFault_events hp
  | holdQueue => exact State.postItem_events hp w
  | viewIndex => exact State.takeView_events hp w
  | slotDescA k => exact State.writeStaging_events hp k w
  | slotDescB k => exact State.sendClaim_events hp k w _
  | slotCancel k => exact State.cancelSlot_events hp k _
  | command => exact State.startCommand_events hp _ _ fun s arg => State.runCommand_events _ s arg
  | supViewIndex => exact s.takeSupView_events p w
  | tickEnable => exact s.writeTickEnable_events p w
  | cmdArg => exact events_ownField p rfl rfl rfl rfl
  | collectTicks => exact events_ownField p rfl rfl rfl rfl
  | graceTicks => exact events_ownField p rfl rfl rfl rfl
  | orphanTicks => exact events_ownField p rfl rfl rfl rfl
  | prescaleDiv => exact events_ownField p rfl rfl rfl rfl
  | tickDiv => exact events_ownField p rfl rfl rfl rfl
  | defaultTerm n => exact events_ownField p rfl rfl rfl rfl
  | termCap n => exact events_ownField p rfl rfl rfl rfl
  | _ => exact s.refuse_events hp _ _

/-- A read answers the word's value, but for SLOT_COLLECT. -/
theorem State.readReg_eq {r : Reg} (h : ∀ k, r ≠ .slotCollect k) (p : Port) (a : BitVec 22) :
    s.readReg p a r = s.doneWord p (s.regWord p r) := by
  cases r with
  | slotCollect k => exact absurd rfl (h k)
  | _ => rfl

theorem State.readReg_events {p : Port} (hp : (s.port p).state = .opened) (a : BitVec 22) (r : Reg) :
    Events s (s.readReg p a r) := by
  by_cases h : ∀ k, r ≠ .slotCollect k
  · rw [State.readReg_eq h]
    exact s.answer_events p _
  · simp only [not_forall, not_not] at h
    obtain ⟨k, rfl⟩ := h
    exact State.collectSlot_events hp k _

theorem State.commandWrite_events (p : Port) (len code : BitVec 4) {act : State → Word → State}
    (h : ∀ s arg, Events s (act s arg)) : Events s (s.commandWrite p len code act) :=
  State.writeAt_events fun hp => State.startCommand_events hp code _ h

/-! ## Every step -/

theorem exec_events {i : Instr} (h : exec i s = .next t) : Events s t := by
  cases i with
  | nreset =>
    obtain rfl := Host.Outcome.next.inj h
    refine Relation.ReflTransGen.trans ?_ Event.reset.events
    exact Events.fields .refl rfl rfl rfl rfl
  | nresetRelease =>
    obtain rfl := Host.Outcome.next.inj h
    refine Relation.ReflTransGen.trans ?_ (State.reopen_events _)
    exact Events.fields .refl rfl rfl rfl rfl
  | portResetLineAssert p => obtain rfl := Host.Outcome.next.inj h; exact s.lineAssert_events p
  | portResetLineRelease p => obtain rfl := Host.Outcome.next.inj h; exact s.lineRelease_events p
  | prescaleUnderflow => obtain rfl := Host.Outcome.next.inj h; exact s.prescaleUnderflow_events
  | leaseTick => obtain rfl := Host.Outcome.next.inj h; exact s.leaseTick_events
  | termEnd e p =>
    obtain rfl := Host.Outcome.next.inj h
    split_ifs
    · exact s.tickEntry_events e
    · exact .refl
  | graceEnd e p =>
    obtain rfl := Host.Outcome.next.inj h
    split_ifs
    · exact s.tickEntry_events e
    · exact .refl
  | lapse p k =>
    obtain rfl := Host.Outcome.next.inj h
    split_ifs
    · exact s.tickSlot_events p k
    · exact .refl
  | orphanExpiry e =>
    obtain rfl := Host.Outcome.next.inj h
    split_ifs
    · exact s.tickEntry_events e
    · exact .refl
  | poolWrite p a be ws =>
    simp only [exec, execPoolWrite] at h
    split_ifs at h
    obtain rfl := Host.Outcome.next.inj h
    exact State.transact_events fun _ => s.takeWrite_events p a be ws
  | poolRead p a be len =>
    obtain rfl := Host.Outcome.next.inj h
    refine State.transact_events fun ht => State.takeRead_events ?_ a be len
    simp only [State.takes, Bool.and_eq_true, Option.isNone_iff_eq_none] at ht
    exact ht.2
  | heldReadJudge p =>
    obtain rfl := Host.Outcome.next.inj h
    cases hr : (s.port p).read with
    | none => exact .refl
    | some r =>
      cases hst : r.stage with
      | accepted e => simp only [hst]; exact .refl
      | held =>
        simp only [hst]
        split_ifs
        · exact State.heldRead_events hr hst
        · exact .refl
  | burstStart => obtain rfl := Host.Outcome.next.inj h; exact s.startBurst_events
  | poolWordReady m => obtain rfl := Host.Outcome.next.inj h; exact s.wordReady_events m
  | evaluation =>
    obtain rfl := Host.Outcome.next.inj h
    split_ifs
    · refine Relation.ReflTransGen.trans ?_ (State.walk_events _)
      exact Events.fields .refl rfl rfl rfl rfl
    · exact .refl
  | slotDescB p len k w =>
    obtain rfl := Host.Outcome.next.inj h
    exact State.writeAt_events fun hp => State.sendClaim_events hp k w _
  | slotCancel p len k w =>
    obtain rfl := Host.Outcome.next.inj h
    exact State.writeAt_events fun hp => State.cancelSlot_events hp k _
  | slotCollect p len k =>
    obtain rfl := Host.Outcome.next.inj h
    exact State.access_events (fun hp _ => State.collectSlot_events hp k _) fun _ ha => absurd ha (slotCollect_addr_ne k)
  | holdQueue p len w =>
    obtain rfl := Host.Outcome.next.inj h
    exact State.writeAt_events fun hp => State.postItem_events hp w
  | release p =>
    obtain rfl := Host.Outcome.next.inj h
    split_ifs
    · exact s.applyHead_events p
    · exact .refl
  | renew p =>
    obtain rfl := Host.Outcome.next.inj h
    split_ifs
    · exact s.applyHead_events p
    · exact .refl
  | viewIndex p len w =>
    obtain rfl := Host.Outcome.next.inj h
    exact State.writeAt_events fun hp => State.takeView_events hp w
  | supViewIndex p len w =>
    obtain rfl := Host.Outcome.next.inj h
    exact State.writeAt_events fun _ => s.takeSupView_events p w
  | noticePending p len w =>
    obtain rfl := Host.Outcome.next.inj h
    exact State.writeAt_events fun hp => State.acknowledge_events hp w
  | noticeEnable p len w =>
    obtain rfl := Host.Outcome.next.inj h
    exact State.writeAt_events fun hp => State.setEnables_events hp w
  | faultClear p len w =>
    obtain rfl := Host.Outcome.next.inj h
    exact State.writeAt_events fun hp => State.clearFault_events hp
  | tickEnable p len w =>
    obtain rfl := Host.Outcome.next.inj h
    exact State.writeAt_events fun _ => s.writeTickEnable_events p w
  | registerWrite p len a w =>
    obtain rfl := Host.Outcome.next.inj h
    exact State.access_write_events fun hp r => State.writeReg_events hp a w r
  | openPort p len =>
    obtain rfl := Host.Outcome.next.inj h
    exact State.commandWrite_events p len _ State.cmdOpenPort_events
  | closePort p len =>
    obtain rfl := Host.Outcome.next.inj h
    exact State.commandWrite_events p len _ State.cmdClosePort_events
  | recallLease p len =>
    obtain rfl := Host.Outcome.next.inj h
    exact State.commandWrite_events p len _ State.cmdRecall_events
  | revokeLease p len =>
    obtain rfl := Host.Outcome.next.inj h
    exact State.commandWrite_events p len _ State.cmdRevoke_events
  | adoptLease p len =>
    obtain rfl := Host.Outcome.next.inj h
    exact State.commandWrite_events p len _ State.cmdAdopt_events
  | retireLease p len =>
    obtain rfl := Host.Outcome.next.inj h
    exact State.commandWrite_events p len _ State.cmdRetire_events
  | setPool p len =>
    obtain rfl := Host.Outcome.next.inj h
    exact State.commandWrite_events p len _ State.cmdSetPool_events
  | partReset p len =>
    obtain rfl := Host.Outcome.next.inj h
    exact State.commandWrite_events p len _ fun s _ => s.cmdPartReset_events
  | unknownCommand p len code =>
    obtain rfl := Host.Outcome.next.inj h
    exact State.commandWrite_events p len _ fun s arg => State.runCommand_events code s arg
  | closeSecondStage p =>
    obtain rfl := Host.Outcome.next.inj h
    split_ifs with hst
    · exact State.secondStage_events (by simpa using hst)
    · exact .refl
  | closeThirdStage p =>
    obtain rfl := Host.Outcome.next.inj h
    split_ifs with hst
    · exact State.thirdStage_events (by simpa using hst)
    · exact .refl
  | closeFourthStage p =>
    obtain rfl := Host.Outcome.next.inj h
    split_ifs with hst
    · exact State.fourthStage_events (by simpa using hst)
    · exact .refl
  | closeSixthStage p =>
    obtain rfl := Host.Outcome.next.inj h
    split_ifs with hst
    · simp only [Bool.and_eq_true, beq_iff_eq] at hst
      exact State.sixthStage_events hst.1 hst.2
    · exact .refl
  | controlWindowRead p len a =>
    obtain rfl := Host.Outcome.next.inj h
    exact State.access_events (fun hp r => State.readReg_events hp a r) fun _ _ => s.answer_events p _

/-- Every step is a sequence of events. -/
theorem step_events (h : step s = .next t) : Events s t := by
  unfold step at h
  cases hp : s.pending with
  | nil =>
    obtain rfl : s.clockCycle = t := by simpa [hp] using h
    exact s.clockCycle_events
  | cons c rest =>
    simp only [hp] at h
    refine Relation.ReflTransGen.trans ?_ (exec_events h)
    exact Events.fields .refl rfl rfl rfl rfl

end Sys2Proof.Machine
end

section
/-! OBLIGATIONS. What every step keeps of the lease table: the counts in flight, the shapes and pairings, the ranges and the
contest. Each law is kept by every event, and every step is a sequence of events. -/

namespace Sys2Proof.Machine

/-- Settles O57, by `step_events`: every event keeps the counts in flight. -/
theorem flightLawKeptByEveryStep : Obligations.FlightLawKeptByEveryStep := by
  intro s t hst hs
  exact Events.flightLaw (step_events hst) hs

/-- Settles O58, by `step_events`: every event keeps the tables and each port's own record. -/
theorem leaseLawKeptByEveryStep : Obligations.LeaseLawKeptByEveryStep := by
  intro s t hst hs hf
  exact Events.leaseLaw (step_events hst) hs hf

/-- Settles O59, by `step_events`: an event that brings a range into use asks first that it is apart. -/
theorem rangesKeptApartByEveryStep : Obligations.RangesKeptApartByEveryStep := by
  intro s t hst hs
  obtain ⟨htable, -⟩ := leaseLaw_iff.1 hs
  exact ⟨Events.noConflict (step_events hst) htable, Events.ownRangesApart (step_events hst) htable⟩

/-- Settles O60, by `step_events`: an event that begins or ends the waiting of a claim reports the contest. -/
theorem contestLawKeptByEveryStep : Obligations.ContestLawKeptByEveryStep := by
  intro s t hst hs hq hc
  obtain ⟨htable, -⟩ := leaseLaw_iff.1 hs
  exact Events.contestLaw (step_events hst) htable hq hc

end Sys2Proof.Machine
end

section
/-! OBLIGATIONS. The ends of a grace and of an orphan's wait, and the covering entry. -/

namespace Sys2Proof.Machine

variable {s : State}

/-! ## What a lease tick leaves of a port's holding (R74, R76, R81, R82) -/

/-- What is found of a port after each holding is kept under its port or dropped. -/
theorem find?_filterMap_of_port {f : Holding → Option Holding} (hf : ∀ h h', f h = some h' → h'.port = h.port) (p : Port)
    (hs : List Holding) (hr : portsRise hs) :
    (hs.filterMap f).find? (fun h => h.port == p) = (hs.find? fun h => h.port == p).bind f := by
  induction hs with
  | nil => rfl
  | cons h rest ih =>
    obtain ⟨hlt, hrest⟩ := List.pairwise_cons.1 hr
    have ih := ih hrest
    by_cases hp : h.port = p
    · have hnone : (rest.find? fun g => g.port == p) = none := by
        refine List.find?_eq_none.2 fun g hg hgp => ?_
        have := hlt g.port (List.mem_map_of_mem hg)
        simp [hp, beq_iff_eq.1 hgp] at this
      rw [List.find?_cons_of_pos (by simpa using hp), Option.bind_some, List.filterMap_cons]
      cases hfh : f h with
      | none => rw [ih, hnone]; rfl
      | some h' => exact List.find?_cons_of_pos (by simp [hf h h' hfh, hp])
    · rw [List.find?_cons_of_neg (by simpa using hp), List.filterMap_cons, ← ih]
      cases hfh : f h with
      | none => rfl
      | some h' => exact List.find?_cons_of_neg (by simpa [hf h h' hfh] using hp)

/-- A port's holding after a tick. -/
theorem holdingOf_afterTick {x y : Entry} (hr : portsRise x.holdings) (hy : y.holdings = afterTick s x) (p : Port) :
    y.holdingOf p = (x.holdingOf p).bind (Holding.tick x.contested s.graceTicks) := by
  unfold Entry.holdingOf
  rw [hy]
  exact find?_filterMap_of_port (fun _ _ h => (Holding.tick_some h).1) p x.holdings hr

/-- A RECALLED holding is revoked by the tick that brings its grace to zero, and else counts down (R81, R82). -/
theorem Holding.tick_recalled {h : Holding} (c : Bool) (g : BitVec 8) (hs : h.state = .recalled) :
    h.tick c g = if h.grace ≤ 1 then none else some { h with grace := h.grace - 1 } := by
  unfold Holding.tick
  simp only [hs]

/-- A port's holding is gone from an entry that has left with no holder. -/
theorem holdingOf_of_leaves {t : State} {e : EntryId} {before : Port → PortRec} {marks : Port → BitVec 8}
    (h : leaves s t e before marks) (p : Port) : (t.entry e).holdingOf p = none := by
  rw [(turns_of_leaves h).entry]
  exact leftEntry_holdingOf _ p

/-- A tick taken at a LIVE entry (R74, R76, R81, R82). -/
theorem tickTakenAt_live {t : State} {e : EntryId} (h : tickTakenAt s t e) (hl : (s.entry e).state = .live) :
    if (s.entry e).holdings ≠ [] ∧ afterTick s (s.entry e) = [] then leaves s t e s.port (tickMarks (s.entry e))
    else becomes s t e { s.entry e with tickDue := false, holdings := afterTick s (s.entry e) } s.port
      (tickMarks (s.entry e)) := by
  unfold tickTakenAt at h
  dsimp only at h
  split at h
  · next hs => rw [hl] at hs; cases hs
  · next hs => rw [hl] at hs; cases hs
  · exact h
  · next hs => rw [hl] at hs; cases hs

/-- A tick taken at an ORPHANED entry with its record (R147). -/
theorem tickTakenAt_orphaned {t : State} {e : EntryId} {o : OrphanRecord} (h : tickTakenAt s t e)
    (hs : (s.entry e).state = .orphaned) (ho : (s.entry e).orphan = some o) :
    if o.timed = true ∧ o.counter ≤ 1 then leaves s t e s.port (markAt 0 0x80)
    else t = s.setEntry e { s.entry e with
      tickDue := false, orphan := some { o with counter := if o.timed = true then o.counter - 1 else o.counter } } := by
  unfold tickTakenAt at h
  dsimp only at h
  split at h
  · next hs' => rw [hs] at hs'; cases hs'
  · next hs' => rw [hs] at hs'; cases hs'
  · next hs' => rw [hs] at hs'; cases hs'
  · split at h
    · next ho' => rw [ho] at ho'; cases ho'
    · next o' ho' =>
      obtain rfl : o = o' := Option.some.inj (ho.symm.trans ho')
      exact h

/-- Settles O12: the event is `tickEntry`, and what is found of the port afterwards is its holding ticked. -/
theorem graceEndRevokesHolding : Obligations.GraceEndRevokesHolding := by
  intro e p s hdue hen hlive hrise hrec
  have hexec : exec (.graceEnd e p) s = .next (s.tickEntry e) := by
    simp [exec, execGraceEnd, State.tickWaits, hdue, hen, hrec]
  obtain ⟨h, hfind, hstate⟩ := Option.map_eq_some_iff.1 hrec
  have hne : (s.entry e).holdings ≠ [] := fun hnil => by simp [Entry.holdingOf, hnil] at hfind
  have htick := tickTakenAt_live (s.tickEntry_takes e) hlive
  simp only [hne, ne_eq, not_false_eq_true, true_and] at htick
  refine ⟨s.tickEntry e, hexec, htick, fun g hg => ?_⟩
  obtain rfl : h = g := Option.some.inj (hfind.symm.trans hg)
  have hfound : ((s.tickEntry e).entry e).holdingOf p = h.tick (s.entry e).contested s.graceTicks := by
    split_ifs at htick with hempty
    · have hdrop := holdingOf_afterTick (s := s) (y := { s.entry e with holdings := [] }) hrise hempty.symm p
      rw [holdingOf_of_leaves htick p]
      rw [hfind] at hdrop
      exact hdrop
    · obtain ⟨-, -, hentry, -⟩ := htick
      rw [holdingOf_afterTick (x := s.entry e) hrise (congrArg Entry.holdings hentry) p, hfind]
      rfl
  rw [hfound, Holding.tick_recalled _ _ hstate]
  exact ⟨fun hle => if_pos hle, fun hlt => if_neg (by bv_omega)⟩

/-- Settles O14: the event is `tickEntry`, which takes the tick by the orphan's record. -/
theorem orphanExpiryDiscardsRecord : Obligations.OrphanExpiryDiscardsRecord := by
  intro e o s hdue hen horph hrec
  have hexec : exec (.orphanExpiry e) s = .next (s.tickEntry e) := by
    simp [exec, execOrphanExpiry, State.tickWaits, hdue, hen, horph]
  have htick := tickTakenAt_orphaned (s.tickEntry_takes e) horph hrec
  rw [hexec]
  refine ⟨fun ht => ?_, fun ht hc => ?_, fun ht hc => ⟨_, rfl, ?_⟩⟩
  · rw [if_neg (by simp [ht]), if_neg (by simp [ht]), ← hrec] at htick
    rw [htick]
  · have hn : ¬o.counter ≤ 1 := by bv_omega
    rw [if_neg fun h => hn h.2, if_pos ht] at htick
    rw [htick]
  · rwa [if_pos ⟨ht, hc⟩] at htick

/-! ## The covering entry (R15, R29) -/

theorem overlaps_of_contains {a b : PageRange} {page : Nat} (ha : a.contains page = true) (hb : b.contains page = true) :
    a.overlaps b = true := by
  simp only [PageRange.contains, PageRange.overlaps, Bool.and_eq_true, decide_eq_true_eq] at *
  omega

/-- Settles O16: the search finds an entry that R15 describes, and two such entries would share the page. -/
theorem coveringEntryIsTheOne : Obligations.CoveringEntryIsTheOne := by
  intro s p page
  have hfound : ∀ e, s.covering p page = some e →
      (s.entry e).state ≠ .free ∧ (s.entry e).range.contains page = true ∧ ((s.entry e).holdingOf p).isSome = true := by
    intro e he
    simpa [and_assoc] using List.find?_some he
  have hnone : s.covering p page = none ↔ ∀ e, ¬((s.entry e).state ≠ .free ∧ (s.entry e).range.contains page = true ∧
      ((s.entry e).holdingOf p).isSome = true) := by
    simp [State.covering, allEntries, and_assoc]
  refine ⟨hfound, hnone, fun hapart e hu hc hh => ?_⟩
  cases hcov : s.covering p page with
  | none => exact absurd ⟨hu, hc, hh⟩ (hnone.1 hcov e)
  | some f =>
    obtain ⟨-, hfc, hfh⟩ := hfound f hcov
    by_contra hne
    have hoff := (hapart p).1 e f (fun hef => hne (by rw [hef])) hh hfh
    rw [overlaps_of_contains hc hfc] at hoff
    cases hoff

end Sys2Proof.Machine
end

section
/-! OBLIGATIONS. The commands of the supervisor that end a lease or an orphan, and the two lease views. -/

namespace Sys2Proof.Machine

variable {s : State}

/-! ## A window transaction that passes its judgments (R161) -/

/-- An OPEN port's single-word transaction at a word that permits it. -/
theorem State.judgeAccess_of_row {p : Port} {a : BitVec 22} {write : Bool} {m : MapRow} (hp : (s.port p).state = .opened)
    (hw : p = 0 ∨ inSupervisorWindow a = false) (hm : rowAt a = some m) (hr : (if write then m.writable else m.readable) = true) :
    s.judgeAccess p 0 a write = .ok m.reg := by
  have hsup : ¬(p ≠ 0 ∧ inSupervisorWindow a = true) := by
    rintro ⟨hne, hin⟩
    exact hw.elim hne fun h => by simp [h] at hin
  unfold State.judgeAccess
  dsimp only
  rw [if_neg fun h => h.1 hp, if_neg hsup, if_neg (by simp), hm]
  exact if_pos hr

/-- It is given to its word (R159, R161). -/
theorem State.access_of_row {p : Port} {a : BitVec 22} {write : Bool} {m : MapRow} {own : Reg → State → State}
    (hp : serves s p) (hw : p = 0 ∨ inSupervisorWindow a = false) (hm : rowAt a = some m)
    (hr : (if write then m.writable else m.readable) = true) : s.access p 0 a write own = own m.reg s := by
  unfold State.access
  rw [s.transact_of_listens _ hp.1, State.judgeAccess_of_row hp.2 hw hm hr]

theorem rowAt_command : rowAt Reg.command.addr = some ⟨0x000, .command, false, true⟩ := by decide

/-- An IDLE engine's command is acted on and its write answered DONE (R138). -/
theorem State.commandWrite_of_commandable (hc : commandable s) (code : BitVec 4) (act : State → Word → State) :
    s.commandWrite 0 0 code act = (act { s with engine := some ⟨code, s.cmdArg⟩ } s.cmdArg).done 0 := by
  obtain ⟨hp, hidle⟩ := hc
  unfold State.commandWrite State.writeAt
  rw [State.access_of_row hp (.inl rfl) rowAt_command rfl]
  unfold State.startCommand
  simp only [hidle]

/-! ## The lease views (R19, R20, R150) -/

theorem rowAt_viewIndex : rowAt Reg.viewIndex.addr = some ⟨0x020, .viewIndex, true, true⟩ := by decide

theorem rowAt_supViewIndex : rowAt Reg.supViewIndex.addr = some ⟨0x010, .supViewIndex, true, true⟩ := by decide

/-- Settles O34: each write passes its judgments, and its word takes the snapshot. -/
theorem viewsTakeSnapshots : Obligations.ViewsTakeSnapshots := by
  rintro p w s e x items rfl rfl rfl
  refine ⟨fun hp => ?_, fun hp => ?_⟩
  · have hacc : s.writeAt p 0 .viewIndex (fun s => s.takeView p w) = s.takeView p w :=
      State.access_of_row hp (.inr (by decide)) rowAt_viewIndex rfl
    rw [exec, execViewIndex, hacc, State.takeView, State.modPort_eq, State.done_eq, State.setPort_setPort,
      State.setPort_port_self]
    rfl
  · have hacc : s.writeAt 0 0 .supViewIndex (fun s => s.takeSupView 0 w) = s.takeSupView 0 w :=
      State.access_of_row hp (.inl rfl) rowAt_supViewIndex rfl
    rw [exec, execSupViewIndex, hacc]
    rfl

/-! ## The answer given in the same event -/

theorem answered_flagsSet (r : PortRec) (m : BitVec 8) (a : Answer) :
    answered (flagsSet r m) a = flagsSet (answered r a) m := rfl

/-- An entry left with no holder, and a transaction answered in the same event. -/
theorem leaves_answer {t : State} {e : EntryId} {before : Port → PortRec} {marks : Port → BitVec 8}
    (h : leaves s t e before marks) (p : Port) (a : Answer) :
    leaves s (t.answer p a) e (Function.update before p (answered (before p) a)) marks := by
  have hcomm : ∀ r m, answered (flagsSet r m) a = flagsSet (answered r a) m := fun r m => answered_flagsSet r m a
  unfold leaves at h ⊢
  split_ifs at h ⊢
  · exact becomesFree_modPort p hcomm h
  · exact becomes_modPort p hcomm h

theorem update_port (s : State) (p : Port) (r : PortRec) : Function.update s.port p r = portsBut s p r := by
  funext q
  rw [Function.update_apply]
  rfl

/-! ## RETIRE_LEASE (R18, R146) -/

/-- Settles O48: past its checks the command is `leave` of the orphan's entry, answered DONE. -/
theorem retireDiscardsTheOrphan : Obligations.RetireDiscardsTheOrphan := by
  rintro s h hc rfl hgen horph
  have hexec : exec (.retireLease 0 0) s =
      .next ((State.leave { s with engine := some ⟨6, s.cmdArg⟩ } (handleOf s.cmdArg).entry).done 0) := by
    have hcur : State.current { s with engine := some ⟨Cmd.retireLease, s.cmdArg⟩ } (handleOf s.cmdArg) = true :=
      beq_iff_eq.2 hgen
    simp only [exec, execRetireLease, State.commandWrite_of_commandable hc, State.cmdRetire, hcur, Bool.not_true]
    exact congrArg (fun u : State => Host.Outcome.next (u.done 0)) (if_neg (not_not.2 horph))
  refine ⟨_, hexec, ?_⟩
  have h := leaves_answer (State.leave_leaves { s with engine := some ⟨6, s.cmdArg⟩ } (handleOf s.cmdArg).entry) 0 (.done [])
  rwa [update_port] at h

/-! ## REVOKE_LEASE (R17, R68, R142, R143) -/

/-- An entry left with no holder, where the ports before the event had already some notices set. -/
theorem leaves_of_marked {t : State} {e : EntryId} {before before' : Port → PortRec} {marks more : Port → BitVec 8}
    (hb : ∀ q, before q = flagsSet (before' q) (more q)) (h : leaves s t e before marks) :
    leaves s t e before' (fun q => more q ||| marks q) := by
  unfold leaves at h ⊢
  split_ifs at h ⊢
  · obtain ⟨h1, h2, h3, h4, h5, h6, h7⟩ := h
    exact ⟨h1, h2, h3, h4, h5, h6, fun q => by rw [h7, hb, flagsSet_flagsSet, BitVec.or_assoc]⟩
  · obtain ⟨h1, h2, h3, h4, h5, h6, h7⟩ := h
    exact ⟨h1, h2, h3, h4, h5, h6, fun q => by rw [h7, hb, flagsSet_flagsSet]⟩

theorem grantsEmptied_flagsSet (r : PortRec) (m : BitVec 8) (e : EntryId) :
    grantsEmptied (flagsSet r m) e = flagsSet (grantsEmptied r e) m := rfl

/-- The notices of a revocation: REVOKE at the ports of collected holdings, LAPSE at those whose grants name the entry. -/
def revokeMarks (s : State) (e : EntryId) (q : Port) : BitVec 8 :=
  (if ∃ g ∈ (s.entry e).holdings, g.port = q ∧ g.state ≠ .awarded then 0x08 else 0) |||
    (if ∃ k, grantNames (s.slot q k) e = true then 0x02 else 0)

/-- A lease is revoked: its holders are told, the slots of its grants emptied, and it leaves (R142). -/
def State.revoked (s : State) (e : EntryId) : State :=
  (s.noticeAll (((s.entry e).holdings.filter Holding.collected).map Holding.port) .revoke).dissolve e

theorem State.revoked_leaves (s : State) (e : EntryId) :
    leaves s (s.revoked e) e (fun q => grantsEmptied (s.port q) e) (revokeMarks s e) := by
  have hport := fun q => s.noticeAll_port (((s.entry e).holdings.filter Holding.collected).map Holding.port) q .revoke
  have hframe := s.noticeAll_frame (((s.entry e).holdings.filter Holding.collected).map Holding.port) .revoke
  unfold State.revoked State.dissolve
  generalize s.noticeAll (((s.entry e).holdings.filter Holding.collected).map Holding.port) .revoke = u at hport hframe ⊢
  have hempty := u.emptyGrants_port e
  have hframe' := u.emptyGrants_frame e
  generalize u.emptyGrants e = v at hempty hframe' ⊢
  have h := leaves_of_ports v.port (s := s) (by rw [hframe', hframe]) (fun _ => rfl) (v.vacated_leaves e)
  have hmarked : ∀ q, v.port q = flagsSet (grantsEmptied (s.port q) e) (revokeMarks s e q) := fun q => by
    have hslot : ∀ k, u.slot q k = s.slot q k := fun k => by rw [State.slot, hport]; rfl
    have hmem : q ∈ ((s.entry e).holdings.filter Holding.collected).map Holding.port ↔
        ∃ g ∈ (s.entry e).holdings, g.port = q ∧ g.state ≠ .awarded := by
      simp only [List.mem_map, List.mem_filter, Holding.collected, bne_iff_ne, and_assoc, and_comm (a := _ ≠ _)]
    rw [hempty, hport, grantsEmptied_flagsSet, flagsSet_flagsSet]
    simp only [hslot, hmem]
    rfl
  have hmarks : (fun q => revokeMarks s e q ||| noMarks q) = revokeMarks s e := funext fun q => BitVec.or_zero
  exact hmarks ▸ leaves_of_marked hmarked h

/-- Settles O46: past its checks the command is `revoked`, answered DONE. -/
theorem revokeEndsTheLease : Obligations.RevokeEndsTheLease := by
  rintro s h x hc rfl rfl hgen hlive
  have hexec : exec (.revokeLease 0 0) s =
      .next ((State.revoked { s with engine := some ⟨4, s.cmdArg⟩ } (handleOf s.cmdArg).entry).done 0) := by
    have hcur : State.current { s with engine := some ⟨Cmd.revokeLease, s.cmdArg⟩ } (handleOf s.cmdArg) = true :=
      beq_iff_eq.2 hgen
    simp only [exec, execRevokeLease, State.commandWrite_of_commandable hc, State.cmdRevoke, hcur, Bool.not_true]
    exact congrArg (fun u : State => Host.Outcome.next (u.done 0)) (if_neg (not_not.2 hlive))
  refine ⟨_, hexec, ?_⟩
  have h := leaves_answer (State.revoked_leaves { s with engine := some ⟨4, s.cmdArg⟩ } (handleOf s.cmdArg).entry) 0 (.done [])
  refine (congrArg₂ (leaves _ _ _) (funext fun q => ?_) rfl).mp h
  rw [Function.update_apply]
  by_cases hq : q = 0
  · subst hq; rfl
  · simp only [if_neg hq]; rfl

end Sys2Proof.Machine
end

section
/-! OBLIGATIONS. The reset state and what the laws say of it, and the words that a window read answers. -/

namespace Sys2Proof.Machine

/-! ## The reset state (R23, R39, R93, R110, R118, R133, R135) -/

theorem reset_port (p : Port) :
    State.reset.port p = { PortRec.cleared with state := if p = 0 then .opened else .closed } := by
  have hlook : (Vector.replicate 4 PortRec.cleared).get p = PortRec.cleared := by simp [Vector.get_eq_getElem]
  by_cases hp : p = 0
  · subst hp; exact Table.look_put_self ..
  · refine (Table.look_put_ne _ _ hp).trans ?_
    rw [Table.look, hlook, if_neg hp]
    rfl

@[simp] theorem reset_slot (p : Port) (k : SlotNo) : State.reset.slot p k = .empty := by
  simp [State.slot, reset_port, PortRec.cleared, Table.look, Vector.get_eq_getElem]

theorem reset_staging (p : Port) (k : SlotNo) : (State.reset.port p).staging.look k = ⟨0, 0⟩ := by
  simp [reset_port, PortRec.cleared, Table.look, Vector.get_eq_getElem]

theorem reset_termsOf (p : Port) : State.reset.termsOf p = ⟨256, 65535⟩ := by
  simp [State.reset, State.termsOf, Table.look, Vector.get_eq_getElem]

/-- No port is pending, so no attention line is asserted. -/
theorem reset_attention (p : Port) : State.reset.attention p = false := by
  simp [State.attention, reset_port, PortRec.cleared]

/-- Settles O5, field by field. -/
theorem resetHoldsTheRuleValues : Obligations.ResetHoldsTheRuleValues := by
  refine ⟨fun e => ?_, fun p => ?_, rfl, rfl, rfl, rfl, rfl, rfl, rfl, rfl, rfl, rfl, rfl, rfl, rfl, reset_termsOf, rfl, rfl, rfl,
    rfl⟩
  · rw [reset_entry]
    exact ⟨rfl, rfl, rfl, rfl, rfl, rfl⟩
  · refine ⟨?_, fun k => ⟨reset_slot p k, reset_staging p k⟩, ?_⟩
    · rw [reset_port]
    · rw [reset_port]
      exact ⟨rfl, rfl, rfl, rfl, rfl, rfl, rfl, reset_attention p⟩

theorem reset_holdingOf (e : EntryId) (p : Port) : (State.reset.entry e).holdingOf p = none := by
  rw [reset_entry]; rfl

theorem reset_claimAt (c : ClaimId) : State.reset.claimAt c = none := by
  unfold State.claimAt; rw [reset_slot]

theorem reset_roomLaw : RoomLaw State.reset := by
  intro p
  rw [reset_port]
  simp [PortRec.cleared]

theorem reset_countersLaw : CountersLaw State.reset := by
  refine ⟨by decide, by decide, fun p => ?_, fun e h hm => ?_, fun p k => ?_⟩
  · rw [reset_termsOf]; decide
  · rw [reset_entry] at hm; cases hm
  · rw [reset_slot]; rfl

theorem reset_queueLaw : QueueLaw State.reset := by
  refine ⟨List.nodup_nil, fun p k => ?_⟩
  rw [reset_claimAt]
  simp [State.reset]

theorem reset_tableLaw : TableLaw State.reset where
  shape e := by rw [reset_entry]; exact entryShape_unused 0
  named e h := by rw [reset_entry] at h; exact absurd rfl h
  exclusive e h := by rw [reset_entry] at h; cases h
  vacant p _ k := reset_slot p k
  gone p _ e := reset_holdingOf e p
  grants p k g hg := by rw [reset_slot] at hg; cases hg
  holdings e p hp := by rw [Entry.holdingState_eq_none.2 (reset_holdingOf e p)] at hp; cases hp

theorem reset_leaseLaw : LeaseLaw State.reset := by
  refine leaseLaw_iff.2 ⟨reset_tableLaw, fun p => ?_⟩
  rw [reset_port]
  exact ⟨fun _ => rfl, fun _ => ⟨rfl, rfl, rfl, rfl, rfl, rfl⟩⟩

theorem reset_flightLaw : FlightLaw State.reset := by
  have htied : ∀ p e, tiedRec (State.reset.port p) e = 0 := fun p e => by rw [reset_port]; rfl
  refine ⟨fun e => ?_, fun e _ => by rw [reset_entry]; rfl, activeOffered_of_none rfl⟩
  rw [reset_entry, tied_eq_sum, Finset.sum_eq_zero fun p _ => htied p e]
  rfl

theorem reset_ownRangesApart : OwnRangesApart State.reset := by
  refine fun p => ⟨fun e f _ he => ?_, fun k d hd => ?_⟩
  · rw [reset_holdingOf] at he; cases he
  · rw [reset_claimAt] at hd; cases hd

/-- Settles O54: nothing is in use at reset. -/
theorem lawsHoldAtReset : Obligations.LawsHoldAtReset := by
  refine ⟨reset_roomLaw, reset_pool_wf, reset_countersLaw, reset_queueLaw, reset_leaseLaw, reset_flightLaw, fun e f _ he => ?_,
    reset_ownRangesApart, fun e => ?_⟩
  · rw [reset_entry] at he; exact absurd rfl he
  · rw [reset_entry]; rfl

/-! ## Words and their fields (R164 to R167) -/

theorem place_zero {n : Nat} (x : BitVec n) : place x 0 = x.setWidth 32 := by simp [place]

/-- A byte placed at lane `m`, as lane `n` shows it. -/
theorem extract_place (x : BitVec 8) (m n : Fin 4) :
    (place x (8 * m.val)).extractLsb' (8 * n.val) 8 = if m = n then x else 0 := by
  refine BitVec.eq_of_getLsbD_eq fun i hi => ?_
  simp only [place, BitVec.getLsbD_extractLsb', BitVec.getLsbD_shiftLeft, BitVec.getLsbD_setWidth]
  by_cases hmn : m = n
  · subst hmn
    have h32 : 8 * m.val + i < 32 := by omega
    have hback : 8 * m.val + i - 8 * m.val = i := by omega
    simp [hi, h32, hback]
    omega
  · have hne : m.val ≠ n.val := fun h => hmn (Fin.ext h)
    rw [if_neg hmn]
    by_cases hlow : 8 * n.val + i < 8 * m.val
    · simp [hlow]
    · have hhigh : 8 ≤ 8 * n.val + i - 8 * m.val := by omega
      simp [BitVec.getLsbD_of_ge x _ hhigh]

theorem extract_portStates (s : State) (n : Port) :
    s.portStatesWord.extractLsb' (8 * n.val) 8 = (s.port n).statusByte := by
  have h0 := extract_place (s.port 0).statusByte 0 n
  have h1 := extract_place (s.port 1).statusByte 1 n
  have h2 := extract_place (s.port 2).statusByte 2 n
  have h3 := extract_place (s.port 3).statusByte 3 n
  unfold State.portStatesWord
  simp only [BitVec.extractLsb'_or]
  refine (congrArg₂ _ (congrArg₂ _ (congrArg₂ _ h0 h1) h2) h3).trans ?_
  fin_cases n <;> simp

/-- The claims ahead of one in the queue are those that stand before it (R37). -/
theorem State.ahead_eq {s : State} {c : ClaimId} {before behind : List ClaimId} (h : s.waitQueue = before ++ c :: behind)
    (hn : c ∉ before) : s.ahead c = before.length := by
  have hall : ∀ x ∈ before, (x != c) = true := fun x hx => by
    rw [bne_iff_ne]
    rintro rfl
    exact hn hx
  rw [State.ahead, h, List.takeWhile_append_of_pos hall]
  simp

theorem entryBits_word (e : EntryId) : place (entryBits e) 0 = BitVec.ofNat 32 e.val := by
  rw [place_zero, entryBits]
  apply BitVec.eq_of_toNat_eq
  simp

/-- The values of the supervisor view's words, once a snapshot stands. -/
theorem State.supView_words {s : State} {v : SupView} (h : s.supView = some v) (p n : Port) :
    s.regWord p .supViewIndex = BitVec.ofNat 32 v.items.index.val ∧ s.regWord p .sview0 = v.items.word0 ∧
    s.regWord p .sview1 = v.items.range.word ∧ s.regWord p .sviewOrphan = (v.orphan.map OrphanRecord.word).getD 0 ∧
    s.regWord p (.sviewHoldA n) = (v.holdings[n.val]?.map Holding.supWordA).getD 0 ∧
    s.regWord p (.sviewHoldB n) = (v.holdings[n.val]?.map Holding.wordB).getD 0 := by
  simp only [State.regWord, h, indexWord, supHolding, Option.map_some, Option.getD_some, Option.bind_some, entryBits_word,
    and_self]

/-- The values of a port's own view's words, once a snapshot stands. -/
theorem State.view_words {s : State} {p : Port} {v : LeaseView} (h : (s.port p).view = some v) :
    s.regWord p .viewIndex = BitVec.ofNat 32 v.items.index.val ∧ s.regWord p (.view 0) = v.items.word0 ∧
    s.regWord p (.view 1) = v.items.range.word ∧ s.regWord p (.view 2) = (v.own.map Holding.wordA).getD 0 ∧
    s.regWord p (.view 3) = (v.own.map Holding.wordB).getD 0 := by
  simp only [State.regWord, h, indexWord, viewWord, Option.map_some, Option.getD_some, entryBits_word, and_self]

theorem State.holdCountWord_eq {s : State} {p : Port} (h : (s.port p).holdQueue.length ≤ 4) :
    s.holdCountWord p = BitVec.ofNat 32 (s.port p).holdQueue.length := by
  rw [State.holdCountWord, place_zero]
  apply BitVec.eq_of_toNat_eq
  simp
  omega

/-- Settles O40: the read passes its judgments and answers `regWord`, whose arms give the values. -/
theorem windowReadsChangeNothing : Obligations.WindowReadsChangeNothing := by
  refine ⟨fun p a row s hp hrow hread hwin hslot => ?_, fun s p n => ?_⟩
  · have hin : p = 0 ∨ inSupervisorWindow a = false := hwin.imp_right fun h => by
      have hlow : ¬0x1000 ≤ windowByte a := by unfold windowByte; omega
      simp [inSupervisorWindow, hlow]
    have hacc : s.access p 0 a false (fun r s => s.readReg p a r) = s.readReg p a row.reg :=
      State.access_of_row hp hin hrow hread
    rw [exec, execControlWindowRead, hacc, State.readReg_eq hslot]
    rfl
  · refine ⟨place_zero _, place_zero _, rfl, place_zero _, place_zero _, place_zero _, place_zero _, place_zero _, ?_,
      place_zero _, place_zero _, extract_portStates s n, place_zero _, place_zero _, place_zero _, rfl, rfl,
      State.holdCountWord_eq, rfl, rfl, rfl, fun _ _ => State.ahead_eq, rfl, fun hv => ?_, fun v hv => State.view_words hv,
      fun hv => ?_, fun v hv => State.supView_words hv p n⟩
    · cases hen : s.tickEnable <;> simp [State.regWord, placeBit, hen, place]
    · simp [State.regWord, hv, indexWord, viewWord]
    · simp [State.regWord, hv, indexWord, supHolding]

end Sys2Proof.Machine
end

section
/-! OBLIGATIONS. The grant of a claim, and the walk of the wait queue. -/

namespace Sys2Proof.Machine

variable {s u : State}

/-! ## What a search of the table finds (R13, R44) -/

/-- The lowest-numbered place with a property. -/
theorem find?_finRange_eq_some {n : Nat} {f : Fin n → Bool} {i : Fin n} :
    (List.finRange n).find? f = some i ↔ f i = true ∧ ∀ j, j < i → f j = false := by
  rw [← Fin.find?_eq_find?_finRange, Fin.find?_eq_some_iff]

theorem State.lowestFree_eq_some {e : EntryId} :
    s.lowestFree = some e ↔ (s.entry e).state = .free ∧ ∀ f, f < e → (s.entry f).state ≠ .free := by
  simp [State.lowestFree, allEntries, find?_finRange_eq_some]

theorem State.joinTarget_eq_some {p : Port} {d : Descriptor} {e : EntryId} :
    s.joinTarget p d = some e ↔ joinable s p d e ∧ ∀ f, f < e → ¬joinable s p d f := by
  unfold State.joinTarget
  by_cases hm : d.mode = .shared
  · have hpred : ∀ f, ((s.entry f).state == .live && (s.entry f).mode == .shared && (s.entry f).range == d.range &&
        ((s.entry f).holdingOf p).isNone) = true ↔ joinable s p d f := by simp [joinable, hm, and_assoc]
    simp only [if_pos hm, allEntries, find?_finRange_eq_some, ← Bool.not_eq_true, hpred]
  · simp [hm, joinable]

theorem State.joinTarget_eq_none {p : Port} {d : Descriptor} : s.joinTarget p d = none ↔ ∀ e, ¬joinable s p d e := by
  unfold State.joinTarget
  by_cases hm : d.mode = .shared
  · simp [hm, joinable, allEntries, and_assoc]
  · simp [hm, joinable]

/-! ## The grant (R51 to R55) -/

/-- Settles O25: the two forms of a grant, each as `State.granted`, and what the searches before it find. -/
theorem grantMakesBothHalves : Obligations.GrantMakesBothHalves := by
  refine ⟨fun s e => State.lowestFree_eq_some, fun s => s.lowestFree_none, fun s p d e => State.joinTarget_eq_some,
    fun s p d => State.joinTarget_eq_none, fun _ _ => rfl, fun g => ⟨rfl, nextGeneration_ne_zero g⟩,
    fun s p k d e term clamped hres => ⟨fun hj hf => ⟨_, rfl, ?_⟩, fun hj => ⟨_, rfl, ?_⟩⟩⟩
  · rw [State.grantClaim_new k hj hf]
    refine ⟨fun f hfe => ?_, rfl, ?_, fun q => ?_⟩
    · rw [State.granted_entry, if_neg hfe]
    · rw [State.granted_entry_self, hres]
      rfl
    · rw [State.granted_port, grantFor, hres]
  · rw [State.grantClaim_join k hj]
    refine ⟨fun f hfe => ?_, rfl, ?_, fun q => ?_⟩
    · rw [State.granted_entry, if_neg hfe]
    · rw [State.granted_entry_self, joinedEntry, hres]
      rfl
    · rw [State.granted_port, grantFor, hres]

/-- What an entry becomes that takes a claim's grant: one that was FREE, or one that the port joins (R44, R51). -/
structure TakesGrant (s : State) (p : Port) (d : Descriptor) (e : EntryId) (y : Entry) : Prop where
  live : y.state = .live
  range : y.range = d.range
  mode : y.mode = d.mode
  holding : y.holdingState p = some .awarded
  before : (s.entry e).state = .free ∨
    ((s.entry e).state = .live ∧ (s.entry e).holdingOf p = none ∧ y.generation = (s.entry e).generation ∧
      (s.entry e).range = d.range ∧ (s.entry e).mode = d.mode ∧
      ∀ q, q ≠ p → y.holdingState q = (s.entry e).holdingState q)

/-- A claim with an entry to go to is granted there. -/
theorem State.grantClaim_takes {p : Port} {d : Descriptor} (k : SlotNo)
    (hr : (s.joinTarget p d).isSome = true ∨ s.lowestFree.isSome = true) : ∃ e y g,
      s.grantClaim p k d = s.granted e y p k (.granted d g) ∧ TakesGrant s p d e y ∧ g.kind ≠ .adopted ∧
      g.handle = ⟨e, y.generation⟩ := by
  cases hj : s.joinTarget p d with
  | some e =>
    obtain ⟨hmode, hlive, hemode, hrange, hnone⟩ := s.joinTarget_some hj
    have hfind : ∀ q, (joinedEntry s p d e).holdingOf q =
        if q = p then some (Holding.award p ((s.termsOf p).resolve d.term).1) else (s.entry e).holdingOf q :=
      Entry.holdingOf_insertHolding (x := s.entry e) (y := joinedEntry s p d e) (h := Holding.award p _) rfl hnone
    refine ⟨e, _, _, State.grantClaim_join k hj, ⟨hlive, hrange, hemode.trans hmode.symm, ?_, .inr ⟨hlive, hnone, rfl, hrange,
      hemode.trans hmode.symm, fun q hq => ?_⟩⟩, by simp [grantFor], rfl⟩
    · rw [Entry.holdingState, hfind, if_pos rfl]; rfl
    · rw [Entry.holdingState, hfind, if_neg hq]; rfl
  | none =>
    cases hf : s.lowestFree with
    | some e =>
      refine ⟨e, _, _, State.grantClaim_new k hj hf, ⟨rfl, rfl, rfl, ?_, .inl (s.lowestFree_some hf)⟩, by simp [grantFor], rfl⟩
      simp [Entry.holdingState, Entry.holdingOf, Entry.allocated, Holding.award]
    | none => simp [hj, hf] at hr

/-- A claim that could be granted after a grant could have been granted before it: a grant takes room and adds none. -/
theorem State.grantable_of_granted {p q : Port} {k : SlotNo} {c d : Descriptor} {e : EntryId} {y : Entry} {g : Grant}
    (hy : TakesGrant s q c e y) {earlier : List Descriptor}
    (h : (s.granted e y q k (.granted c g)).grantable earlier p d = true) : s.grantable earlier p d = true := by
  obtain ⟨hlive, hrange, hmode, hhold, hbefore⟩ := hy
  rw [State.grantable_iff] at h ⊢
  obtain ⟨hfree, hearlier, hroom⟩ := h
  have hentry := s.granted_entry e y q k (.granted c g)
  refine ⟨fun f => ?_, hearlier, ?_⟩
  · by_cases hf : f = e
    · subst hf
      rcases hbefore with hb | ⟨hb, -, -, hr, hm, -⟩
      · exact entry_conflicts_free hb d
      · have hcon := hfree f
        rw [hentry, if_pos rfl] at hcon
        rw [← hcon]
        simp [Entry.conflicts, Entry.countsAs, hb, hr, hm, hlive, hrange, hmode]
    · have hcon := hfree f
      rwa [hentry, if_neg hf] at hcon
  · have hcase : ((s.entry e).state = .free) ∨ ∀ f, (joinable (s.granted e y q k (.granted c g)) p d f → joinable s p d f) := by
      rcases hbefore with hb | ⟨hb, hnone, -, hr, hm, hothers⟩
      · exact .inl hb
      · refine .inr fun f hj => ?_
        unfold joinable at hj ⊢
        rw [hentry] at hj
        split_ifs at hj with hf
        · obtain ⟨hdm, -, hym, hyr, hyp⟩ := hj
          have hpq : p ≠ q := by
            rintro rfl
            rw [Entry.holdingState_eq_none.2 hyp] at hhold
            cases hhold
          have hold := hothers p hpq
          rw [Entry.holdingState_eq_none.2 hyp] at hold
          rw [hf]
          exact ⟨hdm, hb, hm.trans (hmode.symm.trans hym), hr.trans (hrange.symm.trans hyr),
            Entry.holdingState_eq_none.1 hold.symm⟩
        · exact hj
    rcases hcase with hb | hjoin
    · refine .inr (Option.isSome_iff_ne_none.2 fun hn => ?_)
      exact (s.lowestFree_none.1 hn) e hb
    · rcases hroom with hj | hf
      · obtain ⟨f, hf⟩ := Option.isSome_iff_exists.1 hj
        refine .inl (Option.isSome_iff_ne_none.2 fun hn => ?_)
        exact State.joinTarget_eq_none.1 hn f (hjoin f (State.joinTarget_eq_some.1 hf).1)
      · obtain ⟨f, hf⟩ := Option.isSome_iff_exists.1 hf
        refine .inr (Option.isSome_iff_ne_none.2 fun hn => ?_)
        have hff := State.lowestFree_some _ hf
        rw [hentry] at hff
        split_ifs at hff
        · rw [hlive] at hff; cases hff
        · exact s.lowestFree_none.1 hn f hff

/-- A grant leaves the grants before it as they are. -/
theorem grantedTo_granted {p q : Port} {j k : SlotNo} {c d : Descriptor} {e f : EntryId} {y : Entry} {g : Grant}
    (hy : TakesGrant s q c e y) (hne : ¬(p = q ∧ j = k)) (h : grantedTo s p j d f) :
    grantedTo (s.granted e y q k (.granted c g)) p j d f := by
  obtain ⟨g', hslot, hkind, hent, hlive, hgen, hrange, hmode, hhold⟩ := h
  refine ⟨g', by rw [State.granted_slot, if_neg hne, hslot], hkind, hent, ?_⟩
  rw [State.granted_entry]
  split_ifs with hf
  · subst hf
    rcases hy.before with hb | ⟨-, hnone, hg, hr, hm, hothers⟩
    · rw [hlive] at hb; cases hb
    · have hpq : p ≠ q := by
        rintro rfl
        rw [Entry.holdingState_eq_none.2 hnone] at hhold
        cases hhold
      exact ⟨hy.live, hg.trans hgen, hy.range.trans (hr.symm.trans hrange), hy.mode.trans (hm.symm.trans hmode),
        (hothers p hpq).trans hhold⟩
  · exact ⟨hlive, hgen, hrange, hmode, hhold⟩

/-- The grant itself stands. -/
theorem grantedTo_self {q : Port} {k : SlotNo} {c : Descriptor} {e : EntryId} {y : Entry} {g : Grant}
    (hy : TakesGrant s q c e y) (hk : g.kind ≠ .adopted) (hg : g.handle = ⟨e, y.generation⟩) :
    grantedTo (s.granted e y q k (.granted c g)) q k c e := by
  refine ⟨g, by rw [State.granted_slot, if_pos ⟨rfl, rfl⟩], hk, by rw [hg], ?_⟩
  rw [State.granted_entry_self, hg]
  exact ⟨hy.live, rfl, hy.range, hy.mode, hy.holding⟩

/-! ## The walk (R47, R48) -/

/-- The claims before one that stands behind a list without it. -/
theorem takeWhile_of_notMem {c : ClaimId} {before behind : List ClaimId} (hn : c ∉ before) :
    (before ++ c :: behind).takeWhile (fun x => x != c) = before := by
  have hall : ∀ x ∈ before, (x != c) = true := fun x hx => by
    rw [bne_iff_ne]
    rintro rfl
    exact hn hx
  rw [List.takeWhile_append_of_pos hall]
  simp

/-- The claims before one of a list are found in it. -/
theorem takeWhile_of_mem {c : ClaimId} {before : List ClaimId} (hc : c ∈ before) (behind : List ClaimId) :
    (before ++ behind).takeWhile (fun x => x != c) = before.takeWhile (fun x => x != c) := by
  induction before with
  | nil => cases hc
  | cons b before ih =>
    by_cases hb : b = c
    · simp [hb]
    · have hc' : c ∈ before := by simpa [Ne.symm hb] using hc
      simp [hb, ih hc']

/-- The walk of the queue has dealt with all but `todo`, and `kept` of those it has reached still wait: what has been granted,
and that none of those kept could be. -/
structure Walked (s u : State) (kept todo : List ClaimId) : Prop where
  queue : u.waitQueue = kept ++ todo
  sublist : u.waitQueue.Sublist s.waitQueue
  frame : u = { s with entries := u.entries, ports := u.ports, waitQueue := u.waitQueue }
  slots : ∀ p k, (⟨p, k⟩ ∉ s.waitQueue ∨ ⟨p, k⟩ ∈ u.waitQueue) → u.slot p k = s.slot p k
  granted : ∀ p k, ⟨p, k⟩ ∈ s.waitQueue → ⟨p, k⟩ ∉ u.waitQueue → ∃ d e, s.slot p k = .waiting d ∧ grantedTo u p k d e
  entries : ∀ e, u.entry e = s.entry e ∨
    ∃ p k d, ⟨p, k⟩ ∈ s.waitQueue ∧ ⟨p, k⟩ ∉ u.waitQueue ∧ s.slot p k = .waiting d ∧ grantedTo u p k d e
  stuck : ∀ c ∈ kept, ∀ d ∈ u.claimAt c, u.grantable (u.claims (kept.takeWhile fun x => x != c)) c.port d = false

/-- Two events that change entries, ports and the queue alone. -/
theorem tablesFrame_trans {s u t : State} (h : u = { s with entries := u.entries, ports := u.ports, waitQueue := u.waitQueue })
    (h' : t = { u with entries := t.entries, ports := t.ports, waitQueue := t.waitQueue }) :
    t = { s with entries := t.entries, ports := t.ports, waitQueue := t.waitQueue } := by
  rw [h', h]

theorem walked_start (s : State) : Walked s s [] s.waitQueue where
  queue := rfl
  sublist := List.Sublist.refl _
  frame := rfl
  slots _ _ _ := rfl
  granted _ _ h hn := absurd h hn
  entries _ := .inl rfl
  stuck _ h := by cases h

/-- A claim that the walk reaches and that cannot be granted stays. -/
theorem Walked.stays {kept todo : List ClaimId} {c : ClaimId} (h : Walked s u kept (c :: todo)) (hn : c ∉ kept)
    (hc : ∀ d ∈ u.claimAt c, u.grantable (u.claims kept) c.port d = false) : Walked s u (kept ++ [c]) todo where
  queue := by rw [h.queue, List.append_assoc]; rfl
  sublist := h.sublist
  frame := h.frame
  slots := h.slots
  granted := h.granted
  entries := h.entries
  stuck b hb d hd := by
    rcases List.mem_append.1 hb with hb | hb
    · rw [takeWhile_of_mem hb]
      exact h.stuck b hb d hd
    · obtain rfl := List.mem_singleton.1 hb
      rw [takeWhile_of_notMem hn]
      exact hc d hd

/-- A claim that the walk reaches and that can be granted is granted and gone. -/
theorem Walked.grants {kept todo : List ClaimId} {c : ClaimId} (h : Walked s u kept (c :: todo))
    (hnodup : s.waitQueue.Nodup) {d : Descriptor} (hd : u.claimAt c = some d)
    (hr : (u.joinTarget c.port d).isSome = true ∨ u.lowestFree.isSome = true) :
    Walked s (u.grantClaim c.port c.slot d) kept todo := by
  obtain ⟨e, y, g, hgrant, hy, hkind, hhandle⟩ := State.grantClaim_takes c.slot hr
  obtain ⟨-, hframe⟩ := u.grantClaim_marks c.port c.slot d
  have hself := grantedTo_self (k := c.slot) hy hkind hhandle
  have hmem : c ∈ u.waitQueue := by rw [h.queue]; simp
  have hnd : u.waitQueue.Nodup := hnodup.sublist h.sublist
  have hqueue : (u.grantClaim c.port c.slot d).waitQueue = u.waitQueue.erase c := by rw [hgrant]; rfl
  have hin : ∀ b, b ∈ (u.grantClaim c.port c.slot d).waitQueue ↔ b ≠ c ∧ b ∈ u.waitQueue := fun b => by
    rw [hqueue, hnd.mem_erase_iff]
  have hslotc : s.slot c.port c.slot = .waiting d := by
    rw [← h.slots c.port c.slot (.inr hmem)]
    exact State.claimAt_eq_some.1 hd
  have hother : ∀ p k, (⟨p, k⟩ : ClaimId) ≠ c → ¬(p = c.port ∧ k = c.slot) := by
    rintro p k hne ⟨rfl, rfl⟩
    exact hne rfl
  have hckept : c ∉ kept := by
    rw [h.queue] at hnd
    exact fun hc => (List.disjoint_of_nodup_append hnd) hc (by simp)
  have hslot : ∀ p k, (⟨p, k⟩ : ClaimId) ≠ c → (u.grantClaim c.port c.slot d).slot p k = u.slot p k := fun p k hne => by
    rw [hgrant, State.granted_slot, if_neg (hother p k hne)]
  refine ⟨?_, ?_, ?_, fun p k hpk => ?_, fun p k hs hn => ?_, fun f => ?_, fun b hb d' hd' => ?_⟩
  · rw [hqueue, h.queue, List.erase_append_right _ hckept, List.erase_cons_head]
  · rw [hqueue]; exact List.erase_sublist.trans h.sublist
  · exact tablesFrame_trans h.frame hframe
  · have hne : (⟨p, k⟩ : ClaimId) ≠ c := by
      rintro rfl
      rcases hpk with hpk | hpk
      · exact hpk (h.sublist.subset hmem)
      · exact ((hin _).1 hpk).1 rfl
    rw [hslot p k hne]
    exact h.slots p k (hpk.imp_right fun hpk => ((hin _).1 hpk).2)
  · by_cases hc : (⟨p, k⟩ : ClaimId) = c
    · subst hc
      exact ⟨d, e, hslotc, hgrant ▸ hself⟩
    · obtain ⟨d', f, hw, hg⟩ := h.granted p k hs fun hu => hn ((hin _).2 ⟨hc, hu⟩)
      exact ⟨d', f, hw, hgrant ▸ grantedTo_granted hy (hother p k hc) hg⟩
  · by_cases hf : f = e
    · subst hf
      exact .inr ⟨c.port, c.slot, d, h.sublist.subset hmem, fun hc => ((hin _).1 hc).1 rfl, hslotc, hgrant ▸ hself⟩
    · rcases h.entries f with hs | ⟨p, k, d', hs, hn, hw, hg⟩
      · left
        rw [hgrant, State.granted_entry, if_neg hf, hs]
      · have hc : (⟨p, k⟩ : ClaimId) ≠ c := fun hc => hn (hc ▸ hmem)
        exact .inr ⟨p, k, d', hs, fun hu => hn ((hin _).1 hu).2, hw, hgrant ▸ grantedTo_granted hy (hother p k hc) hg⟩
  · have hkept : ∀ b ∈ kept, (u.grantClaim c.port c.slot d).claimAt b = u.claimAt b := fun b hb =>
      State.claimAt_of_slot (hslot b.port b.slot fun hbc => hckept (hbc ▸ hb))
    rw [hkept b hb] at hd'
    rw [claims_congr (s := u) fun b' hb' => hkept b' (List.takeWhile_subset _ hb')]
    by_contra hgr
    have := h.stuck b hb d' hd'
    rw [hgrant] at hgr
    rw [State.grantable_of_granted hy (by simpa using hgr)] at this
    cases this

/-- What a step of the walk does to the claim that it reaches (R48). -/
theorem State.walkStep_of_split {c : ClaimId} {d : Descriptor} {before behind : List ClaimId}
    (hq : s.waitQueue = before ++ c :: behind) (hn : c ∉ before) (hd : s.claimAt c = some d) :
    s.walkStep c = if s.grantable (s.claims before) c.port d = true then s.grantClaim c.port c.slot d else s := by
  unfold State.walkStep
  simp only [hd, hq, takeWhile_of_notMem hn]

theorem Walked.step {kept todo : List ClaimId} {c : ClaimId} (h : Walked s u kept (c :: todo)) (hnodup : s.waitQueue.Nodup) :
    ∃ kept', Walked s (u.walkStep c) kept' todo := by
  have hckept : c ∉ kept := by
    have hnd : u.waitQueue.Nodup := hnodup.sublist h.sublist
    rw [h.queue] at hnd
    exact fun hc => (List.disjoint_of_nodup_append hnd) hc (by simp)
  cases hd : u.claimAt c with
  | none =>
    have hstep : u.walkStep c = u := by unfold State.walkStep; simp only [hd]
    rw [hstep]
    exact ⟨_, h.stays hckept fun d hd' => by rw [hd] at hd'; cases hd'⟩
  | some d =>
    rw [State.walkStep_of_split h.queue hckept hd]
    split_ifs with hg
    · obtain ⟨-, -, hplace⟩ := (u.grantable_iff _ _ _).1 hg
      exact ⟨_, h.grants hnodup hd hplace⟩
    · refine ⟨_, h.stays hckept fun d' hd' => ?_⟩
      obtain rfl : d = d' := Option.some.inj (hd.symm.trans hd')
      simpa using hg

/-- The whole walk (R48). -/
theorem State.walk_walked (hq : s.waitQueue.Nodup) : ∃ kept, Walked s s.walk kept [] := by
  have key : ∀ (todo : List ClaimId) (kept : List ClaimId) (u : State), Walked s u kept todo →
      ∃ kept', Walked s (todo.foldl State.walkStep u) kept' [] := by
    intro todo
    induction todo with
    | nil => exact fun kept u h => ⟨kept, h⟩
    | cons c todo ih =>
      intro kept u h
      obtain ⟨kept', h'⟩ := h.step hq
      exact ih kept' _ h'
  exact key _ _ _ (walked_start s)

/-! ## Ranges, modes and conflict (R2, R3, R42 to R46) -/

theorem overlaps_iff {a b : PageRange} (ha : a.count ≠ 0) (hb : b.count ≠ 0) : a.overlaps b = true ↔ ∃ page : Nat,
    (a.base.toNat ≤ page ∧ page < a.base.toNat + a.count.toNat) ∧ b.base.toNat ≤ page ∧
      page < b.base.toNat + b.count.toNat := by
  have ha' : a.count.toNat ≠ 0 := fun h => ha (BitVec.eq_of_toNat_eq h)
  have hb' : b.count.toNat ≠ 0 := fun h => hb (BitVec.eq_of_toNat_eq h)
  simp only [PageRange.overlaps, Bool.and_eq_true, decide_eq_true_eq]
  constructor
  · exact fun h => ⟨max a.base.toNat b.base.toNat, by omega⟩
  · rintro ⟨page, h⟩; omega

theorem clash_iff (a b : Mode) : a.clash b = true ↔ a = .exclusive ∨ b = .exclusive := by simp [Mode.clash]

theorem entry_conflicts_iff (x : Entry) (d : Descriptor) : x.conflicts d = true ↔
    x.state ≠ .free ∧ x.range.overlaps d.range = true ∧ (x.state = .orphaned ∨ x.mode = .exclusive ∨ d.mode = .exclusive) := by
  have hcounts : x.countsAs = .exclusive ↔ x.state = .orphaned ∨ x.mode = .exclusive := by
    unfold Entry.countsAs
    split_ifs with h <;> simp [h]
  simp [Entry.conflicts, clash_iff, hcounts, and_assoc, or_assoc]

/-- Settles O24: the walk keeps `Walked`, and at its end nothing is left to be reached. -/
theorem evaluationLeavesNothingGrantable : Obligations.EvaluationLeavesNothingGrantable := by
  refine ⟨fun a b => overlaps_iff, fun c d => ?_, entry_conflicts_iff, fun s earlier p d => ?_, fun s c d => State.claimAt_eq_some,
    fun s c d before behind hq hn hd => ?_, fun s hq hcall => ?_⟩
  · simp [Descriptor.conflicts, clash_iff]
  · have hjoin : (s.joinTarget p d).isSome = true ↔ ∃ e, joinable s p d e := by
      rw [Option.isSome_iff_ne_none, ne_eq, State.joinTarget_eq_none, not_forall_not]
    have hfree : s.lowestFree.isSome = true ↔ ∃ e, (s.entry e).state = .free := by
      rw [Option.isSome_iff_ne_none, ne_eq, State.lowestFree_none, not_forall_not]
    rw [State.grantable_iff, hjoin, hfree]
  · rw [State.walkStep_of_split hq hn hd]
    exact ⟨fun h => if_pos h, fun h => if_neg (by rw [State.claims, h]; simp)⟩
  · obtain ⟨kept, h⟩ := State.walk_walked (s := { s with evalCalled := false }) hq.1
    refine ⟨State.walk { s with evalCalled := false }, ?_, rfl, ?_, h.sublist, ?_, h.slots, h.granted, fun e => ?_⟩
    · simp [exec, execEvaluation, hcall]
    · intro c hc d hd
      have hqueue := h.queue
      rw [List.append_nil] at hqueue
      rw [hqueue] at hc ⊢
      exact h.stuck c hc d hd
    · exact h.frame
    · exact (h.entries e).imp_right fun ⟨p, k, d, hm, _, hw, hg⟩ => ⟨p, k, d, hm, hw, hg⟩

end Sys2Proof.Machine
end

section
/-! OBLIGATIONS. The last word of a burst, the release of a holding, and the fourth stage of a close. -/

namespace Sys2Proof.Machine

variable {s : State}

/-! ## The last word of a burst (R104, R106, R109) -/

/-- One more lane put into a word, as lane `n` shows it. -/
theorem extract_lane (c : Bool) (w : Word) (x : Byte) (m n : Fin 4) :
    (if c = true then w ||| place x (8 * m.val) else w).extractLsb' (8 * n.val) 8 =
      w.extractLsb' (8 * n.val) 8 ||| (if c = true ∧ m = n then x else 0) := by
  cases c with
  | false => simp
  | true => simp [BitVec.extractLsb'_or, extract_place]

/-- A lane of the word that a read takes: as returned if it is enabled, and zero otherwise (R104). -/
theorem State.readWord_lane (s : State) (m : MemAnswer) (base : Nat) (be : BitVec 4) (n : Fin 4) :
    (s.readWord m base be).extractLsb' (8 * n.val) 8 =
      if be.getLsbD n.val = true then s.returnedByte m base n else 0 := by
  have hlanes : lanes = [0, 1, 2, 3] := by decide
  unfold State.readWord
  simp only [hlanes, List.foldl_cons, List.foldl_nil, extract_lane]
  fin_cases n <;> simp

/-- Some enabled lane fails its parity check (R109). -/
theorem State.parityFails_iff (s : State) (m : MemAnswer) (base : Nat) (be : BitVec 4) :
    s.parityFails m base be = true ↔ ∃ i : Fin 4, be.getLsbD i.val = true ∧
      s.returnedParity m base i ≠ parityBit (s.returnedByte m base i) := by
  simp [State.parityFails, lanes]

theorem burstEnds_frame {t : State} {e : EntryId} {before : Port → PortRec} {marks : Port → BitVec 8}
    (h : burstEnds s t e before marks) : leaseFrame s t := (turns_of_burstEnds h).frame

/-- Ready for the last word of a burst finishes it. -/
theorem State.wordReady_last {b : ActiveBurst} (hb : s.memPort = some b) (m : MemAnswer)
    (hlast : ¬(s.endWord b m).2.done < (s.endWord b m).2.length) :
    s.wordReady m = (s.endWord b m).1.endBurst (s.endWord b m).2 := by
  unfold State.wordReady
  simp only [hb]
  exact if_neg hlast

/-- A read's burst once one more word of it has been taken (R104, R109). -/
def ActiveBurst.took (b : ActiveBurst) (w : Word) (fails : Bool) : ActiveBurst :=
  { b with done := b.done + 1, got := b.got ++ [w], parityError := b.parityError || fails }

/-- The port of a read that ends with this word. -/
theorem ActiveBurst.burstDone_took {b : ActiveBurst} {len : BitVec 4} (hk : b.kind = .read len) (w : Word) (fails : Bool)
    (r : PortRec) : burstDone (b.took w fails) r =
      if (b.parityError || fails) = true then readRefusedPort r .poolParity b.addr
      else readEndedPort r (.done (b.got ++ [w])) := by
  unfold burstDone ActiveBurst.took
  simp only [hk]

/-- Settles O22: the word's effect, then the end of the burst. -/
theorem lastWordFinishesBurst : Obligations.LastWordFinishesBurst := by
  refine ⟨fun m b ws w s hb hk hw hlen => ?_, fun m b len s hb hk hdone => ?_⟩
  · have hword : s.endWord b m = (s.writeWord (byteAddr b.wordAddr) b.enables w, { b with done := b.done + 1 }) := by
      unfold State.endWord
      simp only [hk, hw]
    have hlast : ¬(s.endWord b m).2.done < (s.endWord b m).2.length := by
      simp only [hword, ActiveBurst.length, hk]
      omega
    obtain ⟨hstores, hframe, -⟩ := s.writeWord_stores (byteAddr b.wordAddr) b.enables w
    refine ⟨s.wordReady m, rfl, ?_⟩
    rw [State.wordReady_last hb m hlast, hword]
    dsimp only
    have hends := State.endBurst_ends (s.writeWord (byteAddr b.wordAddr) b.enables w) { b with done := b.done + 1 }
    generalize s.writeWord (byteAddr b.wordAddr) b.enables w = u at hstores hframe hends ⊢
    have hfin := burstEnds_frame hends
    have hport : ∀ q, u.port q = s.port q := fun q => by rw [hframe]; rfl
    have hdone : burstDone { b with done := b.done + 1 } (u.port b.port) =
        { s.port b.port with writeBuffer := (s.port b.port).writeBuffer.tail } := by
      unfold burstDone
      simp only [hk, hport]
    generalize u.endBurst { b with done := b.done + 1 } = t at hends hfin ⊢
    have hpool : t.poolData = u.poolData ∧ t.poolParity = u.poolParity := by
      rw [hfin]; exact ⟨rfl, rfl⟩
    refine ⟨?_, ?_⟩
    · have hbyte : ∀ a, t.poolByte a = u.poolByte a ∧ t.poolParityAt a = u.poolParityAt a := fun a => by
        unfold State.poolByte State.poolParityAt
        rw [hpool.1, hpool.2]
        exact ⟨rfl, rfl⟩
      simpa only [storesWord, byteKept, hbyte] using hstores
    · have hstate : ({ u with memPort := none } : State) =
          { s with memPort := none, poolData := t.poolData, poolParity := t.poolParity } := by
        rw [hpool.1, hpool.2, hframe]
      have hbefore : portsBut u b.port (burstDone { b with done := b.done + 1 } (u.port b.port)) =
          portsBut s b.port { s.port b.port with writeBuffer := (s.port b.port).writeBuffer.tail } := by
        funext q
        rw [hdone, portsBut, portsBut, hport]
      rw [← hstate, ← hbefore]
      exact hends
  · have hword : s.endWord b m = (s, b.took (s.readWord m (byteAddr b.wordAddr) b.enables)
        (s.parityFails m (byteAddr b.wordAddr) b.enables)) := by
      unfold State.endWord
      simp only [hk, ActiveBurst.took]
    have hlast : ¬(s.endWord b m).2.done < (s.endWord b m).2.length := by
      simp only [hword, ActiveBurst.took, ActiveBurst.length, hk]
      omega
    refine ⟨s.wordReady m, _, b.parityError || s.parityFails m (byteAddr b.wordAddr) b.enables, rfl,
      s.readWord_lane m (byteAddr b.wordAddr) b.enables, by rw [Bool.or_eq_true, State.parityFails_iff], ?_⟩
    rw [State.wordReady_last hb m hlast, hword]
    have hends := State.endBurst_ends s (b.took (s.readWord m (byteAddr b.wordAddr) b.enables)
      (s.parityFails m (byteAddr b.wordAddr) b.enables))
    rwa [show (b.took _ _).port = b.port from rfl, ActiveBurst.burstDone_took hk] at hends

/-! ## The release of a holding (R85, R86, R88) -/

theorem losesHolding_modPort {u : State} {e : EntryId} {p : Port} {before : Port → PortRec} {marks : Port → BitVec 8} (q : Port)
    {f : PortRec → PortRec} (hf : ∀ r m, f (flagsSet r m) = flagsSet (f r) m) (h : losesHolding s u e p before marks) :
    losesHolding s (u.modPort q f) e p (Function.update before q (f (before q))) marks := by
  unfold losesHolding leaves at h ⊢
  split_ifs at h ⊢
  · exact becomesFree_modPort q hf h
  · exact becomes_modPort q hf h
  · exact becomes_modPort q hf h

/-- A RELEASE of a collected holding by its handle (R86). -/
theorem State.applyRelease_collected {p : Port} {h : Handle} (hg : (s.entry h.entry).generation = h.generation)
    (hn : (s.entry h.entry).holdingState p ≠ none) (ha : (s.entry h.entry).holdingState p ≠ some .awarded) :
    s.applyRelease p h = s.removeHolding h.entry p := by
  unfold State.applyRelease
  rw [if_neg (not_not.2 hg)]
  cases hst : (s.entry h.entry).holdingState p with
  | none => exact absurd hst hn
  | some st =>
    cases st with
    | awarded => exact absurd hst ha
    | _ => rfl

/-- A RELEASE that finds no collected holding is dropped (R86). -/
theorem State.applyRelease_dropped {p : Port} {h : Handle} (hg : (s.entry h.entry).generation = h.generation)
    (hn : (s.entry h.entry).holdingState p = none ∨ (s.entry h.entry).holdingState p = some .awarded) :
    s.applyRelease p h = s := by
  unfold State.applyRelease
  rw [if_neg (not_not.2 hg)]
  rcases hn with hn | hn <;> rw [hn]

/-- Settles O32: `applyRelease` by the row of Table 21, and the item leaves the queue in the same event. -/
theorem releaseRemovesHolding : Obligations.ReleaseRemovesHolding := by
  rintro p i rest s r x hq hk rfl rfl
  have hexec : exec (.release p) s = .next ((s.applyRelease p i.handle).dropHead p) := by
    simp [exec, execRelease, State.headKind, State.applyHead, hq, hk]
  have hdrop : s.dropHead p = s.setPort p { s.port p with holdQueue := rest } := by
    rw [State.dropHead, State.modPort_eq, hq, List.tail_cons]
  rw [hexec]
  refine ⟨fun hg => ?_, fun hg hn => ?_, fun hg hn ha => ⟨_, rfl, ?_⟩⟩
  · rw [State.applyRelease, if_pos hg, State.offerFault_eq, State.dropHead, State.modPort_eq, State.setPort_setPort,
      State.setPort_port_self]
    simp only [flagsSet, hq, List.tail_cons]
  · rw [State.applyRelease_dropped hg hn, hdrop]
  · rw [State.applyRelease_collected hg hn ha]
    have h := losesHolding_modPort p (f := fun r => { r with holdQueue := r.holdQueue.tail }) (fun _ _ => rfl)
      (s.removeHolding_loses i.handle.entry p)
    rw [update_port, hq, List.tail_cons] at h
    exact h

end Sys2Proof.Machine
end

section
/-! OBLIGATIONS. The fourth stage of a close, entry by entry (Table 30). -/

namespace Sys2Proof.Machine

variable {s t : State}

/-! ## One entry of the fourth stage (R129, R130) -/

/-- The close of the port makes an orphan of the entry (Table 30). -/
def orphans (p : Port) (x : Entry) : Bool :=
  x.mode == .exclusive && (x.holdingState p == some .held || x.holdingState p == some .overdue)

/-- The close of the port frees the entry (R19). -/
def frees (p : Port) (x : Entry) : Bool := (x.holdingState p).isSome && (vacatedEntry p 0 x).state == .free

/-- The close of the port frees the entry that the engine waits for. -/
def freesAwaited (s : State) (p : Port) (e : EntryId) : Bool := awaits s e && frees p (s.entry e)

/-- The notices at P0 of a fourth stage that makes an orphan, and of one that completes a command. -/
def vacateMarks (orphan done : Bool) (q : Port) : BitVec 8 :=
  (if q = 0 ∧ orphan = true then 0x40 else 0) ||| (if q = 0 ∧ done = true then 0x20 else 0)

theorem vacateMarks_or (o o' c c' : Bool) (q : Port) :
    vacateMarks o c q ||| vacateMarks o' c' q = vacateMarks (o || o') (c || c') q := by
  unfold vacateMarks
  by_cases hq : q = 0
  · cases o <;> cases o' <;> cases c <;> cases c' <;> simp [hq]
  · simp [hq]

/-- The state of the entry left does not depend on the orphan counter's load. -/
theorem vacatedEntry_state (p : Port) (ticks ticks' : BitVec 16) (x : Entry) :
    (vacatedEntry p ticks x).state = (vacatedEntry p ticks' x).state := by
  unfold vacatedEntry
  cases x.holdingState p with
  | none => rfl
  | some st => dsimp only; split_ifs <;> rfl

theorem frees_iff (p : Port) (ticks : BitVec 16) (x : Entry) :
    frees p x = true ↔ x.holdingState p ≠ none ∧ (vacatedEntry p ticks x).state = .free := by
  rw [vacatedEntry_state p ticks 0]
  simp [frees, Option.isSome_iff_ne_none]

/-- The fourth stage has dealt with the entries of a list, in the one event (R129, R130). -/
structure Vacated (p : Port) (l : List EntryId) (s t : State) : Prop where
  frame : leaseFrame s t
  entry : ∀ e, t.entry e = if e ∈ l then vacatedEntry p s.orphanTicks (s.entry e) else s.entry e
  engine : t.engine = if l.any (freesAwaited s p) = true then none else s.engine
  result : t.result = if l.any (freesAwaited s p) = true then s.engine.map (fun c => ⟨c.code, .ok⟩) else s.result
  called : t.evalCalled = (s.evalCalled || l.any fun e => frees p (s.entry e))
  ports : ∀ q, t.port q =
    flagsSet (s.port q) (vacateMarks (l.any fun e => orphans p (s.entry e)) (l.any (freesAwaited s p)) q)

/-- An entry that stays in use. -/
theorem vacated_of_becomes {p : Port} {e : EntryId} {marks : Port → BitVec 8}
    (h : becomes s t e (vacatedEntry p s.orphanTicks (s.entry e)) s.port marks) (hf : frees p (s.entry e) = false)
    (hm : ∀ q, marks q = vacateMarks (orphans p (s.entry e)) false q) : Vacated p [e] s t := by
  obtain ⟨hframe, hothers, hentry, hcalled, hengine, hresult, hports⟩ := h
  refine ⟨hframe, fun f => ?_, ?_, ?_, ?_, fun q => ?_⟩
  · by_cases hfe : f = e
    · subst hfe; simp [hentry]
    · simp [hfe, hothers f hfe]
  · simp [freesAwaited, hf, hengine]
  · simp [freesAwaited, hf, hresult]
  · simp [hf, hcalled]
  · rw [hports, hm]
    simp [freesAwaited, hf]

/-- An entry that becomes FREE. -/
theorem vacated_of_becomesFree {p : Port} {e : EntryId} (h : becomesFree s t e s.port noMarks)
    (hx : vacatedEntry p s.orphanTicks (s.entry e) = { Entry.unused with generation := (s.entry e).generation })
    (hp : (s.entry e).holdingState p ≠ none) (ho : orphans p (s.entry e) = false) : Vacated p [e] s t := by
  obtain ⟨hframe, hothers, hentry, hcalled, hengine, hresult, hports⟩ := h
  have hf : frees p (s.entry e) = true := (frees_iff p s.orphanTicks _).2 ⟨hp, by rw [hx]; rfl⟩
  refine ⟨hframe, fun f => ?_, ?_, ?_, ?_, fun q => ?_⟩
  · by_cases hfe : f = e
    · subst hfe; simp [hentry, hx]
    · simp [hfe, hothers f hfe]
  · simp [freesAwaited, hf, hengine]
  · simp [freesAwaited, hf, hresult]
  · simp [hf, hcalled]
  · rw [hports]
    cases hw : awaits s e <;> simp [freesAwaited, hf, ho, hw, vacateMarks, noMarks]

/-- One entry with a holding of the port is dealt with by Table 30. -/
theorem State.vacateEntry_vacated (p : Port) (e : EntryId) (hs : EntryShape (s.entry e)) : Vacated p [e] s (s.vacateEntry p e) := by
  cases hst : (s.entry e).holdingState p with
  | none =>
    have hsame : s.vacateEntry p e = s := by unfold State.vacateEntry; simp only [hst]
    have hx : vacatedEntry p s.orphanTicks (s.entry e) = s.entry e := by unfold vacatedEntry; simp only [hst]
    have hf : frees p (s.entry e) = false := by simp [frees, hst]
    have ho : orphans p (s.entry e) = false := by simp [orphans, hst]
    refine vacated_of_becomes (marks := noMarks) ?_ hf fun q => by simp [ho, vacateMarks, noMarks]
    rw [hx, hsame]
    exact ⟨rfl, fun _ _ => rfl, rfl, rfl, rfl, rfl, fun q => (flagsSet_zero _).symm⟩
  | some st =>
    have hlive := entryShape_live_of_holdingState hs hst
    have hop : s.vacateEntry p e = if (s.entry e).mode = .exclusive ∧ (st = .held ∨ st = .overdue) then s.makeOrphan e p
        else s.removeHolding e p := by unfold State.vacateEntry; simp only [hst]
    have hvac : vacatedEntry p s.orphanTicks (s.entry e) =
        if (s.entry e).mode = .exclusive ∧ (st = .held ∨ st = .overdue) then orphanedEntry (s.entry e) p s.orphanTicks
        else if heldByOthers (s.entry e) p ≠ [] then { s.entry e with holdings := heldByOthers (s.entry e) p }
        else if (s.entry e).inFlight = 0 then { Entry.unused with generation := (s.entry e).generation }
        else drainingEntry (s.entry e) := by unfold vacatedEntry; simp only [hst]
    have horph : orphans p (s.entry e) = true ↔ (s.entry e).mode = .exclusive ∧ (st = .held ∨ st = .overdue) := by
      simp [orphans, hst]
    have hfrees : frees p (s.entry e) = true ↔ (vacatedEntry p s.orphanTicks (s.entry e)).state = .free := by
      simp [frees_iff p s.orphanTicks, hst]
    have hnone : ∀ {x : Entry}, vacatedEntry p s.orphanTicks (s.entry e) = x → x.state ≠ .free → frees p (s.entry e) = false :=
      fun hx hn => by
        rw [← Bool.not_eq_true, hfrees, hx]
        exact hn
    by_cases hc : (s.entry e).mode = .exclusive ∧ (st = .held ∨ st = .overdue)
    · rw [if_pos hc] at hop hvac
      rw [hop]
      refine vacated_of_becomes (hvac ▸ s.makeOrphan_becomes e p) (hnone hvac (by simp [orphanedEntry])) fun q => ?_
      simp [horph.2 hc, vacateMarks, markAt]
    · rw [if_neg hc] at hop hvac
      have ho : orphans p (s.entry e) = false := by rw [← Bool.not_eq_true, horph]; exact hc
      have hquiet : ∀ q, (noMarks q : BitVec 8) = vacateMarks (orphans p (s.entry e)) false q := fun q => by
        simp [ho, vacateMarks, noMarks]
      have hlose := s.removeHolding_loses e p
      rw [hop]
      unfold losesHolding leaves at hlose
      by_cases hn : heldByOthers (s.entry e) p = []
      · rw [if_pos hn] at hlose
        rw [if_neg (not_not.2 hn)] at hvac
        by_cases h0 : (s.entry e).inFlight = 0
        · rw [if_pos h0] at hlose hvac
          exact vacated_of_becomesFree hlose hvac (by simp [hst]) ho
        · rw [if_neg h0] at hlose hvac
          exact vacated_of_becomes (hvac ▸ hlose) (hnone hvac (by simp [drainingEntry])) hquiet
      · rw [if_neg hn] at hlose
        rw [if_pos hn] at hvac
        exact vacated_of_becomes (hvac ▸ hlose) (hnone hvac (by simp [hlive])) hquiet

/-! ## Every entry -/

theorem any_congr_of_mem {α : Type} {l : List α} {f g : α → Bool} (h : ∀ x ∈ l, f x = g x) : l.any f = l.any g := by
  rw [Bool.eq_iff_iff, List.any_eq_true, List.any_eq_true]
  exact exists_congr fun x => and_congr_right fun hx => by rw [h x hx]

/-- An engine that has completed its command waits for no entry. -/
theorem awaits_of_vacated {p : Port} {e : EntryId} (h : Vacated p [e] s t) (f : EntryId) :
    awaits t f = if freesAwaited s p e = true then false else awaits s f := by
  have hengine := h.engine
  simp only [List.any_cons, List.any_nil, Bool.or_false] at hengine
  unfold awaits
  rw [hengine]
  split_ifs <;> rfl

/-- One entry, then the others. -/
theorem Vacated.cons {p : Port} {e : EntryId} {l : List EntryId} {u : State} (hn : e ∉ l) (h : Vacated p [e] s u)
    (h' : Vacated p l u t) : Vacated p (e :: l) s t := by
  have hent : ∀ f ∈ l, u.entry f = s.entry f := fun f hf => by
    rw [h.entry, if_neg]
    rintro hfe
    exact hn (List.mem_singleton.1 hfe ▸ hf)
  have hticks : u.orphanTicks = s.orphanTicks := by rw [h.frame]
  have horph : (l.any fun f => orphans p (u.entry f)) = l.any fun f => orphans p (s.entry f) :=
    any_congr_of_mem fun f hf => by rw [hent f hf]
  have hfree : (l.any fun f => frees p (u.entry f)) = l.any fun f => frees p (s.entry f) :=
    any_congr_of_mem fun f hf => by rw [hent f hf]
  have hdone : l.any (freesAwaited u p) = if freesAwaited s p e = true then false else l.any (freesAwaited s p) := by
    split_ifs with hc
    · refine List.any_eq_false.2 fun f _ => ?_
      have hwait := awaits_of_vacated h f
      rw [if_pos hc] at hwait
      simp [freesAwaited, hwait]
    · refine any_congr_of_mem fun f hf => ?_
      have hwait := awaits_of_vacated h f
      rw [if_neg hc] at hwait
      rw [freesAwaited, freesAwaited, hwait, hent f hf]
  have hengine := h.engine
  have hresult := h.result
  have hcalled := h.called
  have hports := h.ports
  simp only [List.any_cons, List.any_nil, Bool.or_false] at hengine hresult hcalled hports
  refine ⟨?_, fun f => ?_, ?_, ?_, ?_, fun q => ?_⟩
  · have h2 := h'.frame
    have h1 := h.frame
    unfold leaseFrame at h1 h2 ⊢
    rw [h2, h1]
  · rw [h'.entry, h.entry, hticks]
    by_cases hfe : f = e
    · subst hfe; simp [hn]
    · simp [hfe]
  · rw [h'.engine, hdone, hengine, List.any_cons]
    cases freesAwaited s p e <;> cases l.any (freesAwaited s p) <;> rfl
  · rw [h'.result, hdone, hengine, hresult, List.any_cons]
    cases freesAwaited s p e <;> cases l.any (freesAwaited s p) <;> rfl
  · rw [h'.called, hcalled, hfree, Bool.or_assoc, List.any_cons]
  · rw [h'.ports, hports, flagsSet_flagsSet, horph, hdone, vacateMarks_or, List.any_cons, List.any_cons]
    cases freesAwaited s p e <;> rfl

/-- The fourth stage deals with entry after entry. -/
theorem foldl_vacated (p : Port) (l : List EntryId) (hl : l.Nodup) (s : State)
    (hs : ∀ e ∈ l, EntryShape (s.entry e)) : Vacated p l s (l.foldl (fun s e => s.vacateEntry p e) s) := by
  induction l generalizing s with
  | nil => exact ⟨rfl, fun _ => rfl, rfl, rfl, by simp, fun q => by simp [vacateMarks]⟩
  | cons e l ih =>
    obtain ⟨hn, hl⟩ := List.nodup_cons.1 hl
    have h := State.vacateEntry_vacated p e (hs e (by simp))
    refine h.cons hn (ih hl _ fun f hf => ?_)
    rw [h.entry, if_neg fun hfe => hn ((List.mem_singleton.1 hfe : f = e) ▸ hf)]
    exact hs f (by simp [hf])

/-! ## The stage itself -/

/-- A port that goes on to the fifth stage with the notices set in the fourth. -/
theorem flagsSet_closing {r : PortRec} {c : CloseCause} {st st' : CloseStage} (h : r.state = .closing c st) (m : BitVec 8) :
    { flagsSet r m with state := .closing c st' } = flagsSet { r with state := .closing c st' } m := by
  simp [flagsSet, h]

theorem any_allEntries (f : EntryId → Bool) : allEntries.any f = true ↔ ∃ e, f e = true := by
  simp [allEntries]

/-- Settles O52: the entries by `foldl_vacated`, and the fifth stage begins. -/
theorem fourthStageRemovesOrOrphans : Obligations.FourthStageRemovesOrOrphans := by
  intro p c s hst hshape
  have hstage : s.closeStage p = some .fourth := State.closeStage_eq_some.2 ⟨c, hst⟩
  have hexec : exec (.closeFourthStage p) s =
      .next ((allEntries.foldl (fun s e => s.vacateEntry p e) s).enterStage p .fifth) := by
    simp [exec, execCloseFourthStage, hstage]
  have h := foldl_vacated p allEntries (List.nodup_finRange 64) s fun e _ => hshape e
  generalize allEntries.foldl (fun s e => s.vacateEntry p e) s = u at hexec h
  obtain ⟨hframe, hentry, hengine, hresult, hcalled, hports⟩ := h
  have hawaited : allEntries.any (freesAwaited s p) = true ↔ closeFreesAwaited s p := by
    rw [any_allEntries]
    refine exists_congr fun e => ?_
    rw [freesAwaited, Bool.and_eq_true, frees_iff p s.orphanTicks]
  have horphan : (allEntries.any fun e => orphans p (s.entry e)) = true ↔ ∃ e, (s.entry e).mode = .exclusive ∧
      ((s.entry e).holdingState p = some .held ∨ (s.entry e).holdingState p = some .overdue) := by
    rw [any_allEntries]
    simp [orphans]
  have hstate : (u.port p).state = .closing c .fourth := by rw [hports]; exact hst
  rw [State.enterStage_eq hstate] at hexec
  refine ⟨_, hexec, ?_, fun e => ?_, fun e => ?_, ?_, ?_, fun q => ?_, ?_⟩
  · unfold leaseFrame at hframe ⊢
    rw [hframe]; rfl
  · exact (hentry e).trans (if_pos (List.mem_finRange e))
  · refine (congrArg (Entry.holdingOf · p) ((hentry e).trans (if_pos (List.mem_finRange e)))).trans ?_
    exact vacatedEntry_holdingOf p _ _
  · exact hengine.trans (if_congr hawaited rfl rfl)
  · exact hresult.trans (if_congr hawaited rfl rfl)
  · have hmarks : vacateMarks (allEntries.any fun e => orphans p (s.entry e)) (allEntries.any (freesAwaited s p)) q =
        ((if q = 0 ∧ ∃ e, (s.entry e).mode = .exclusive ∧
            ((s.entry e).holdingState p = some .held ∨ (s.entry e).holdingState p = some .overdue) then 0x40 else 0) |||
          (if q = 0 ∧ closeFreesAwaited s p then 0x20 else 0)) :=
      congrArg₂ _ (if_congr (and_congr_right fun _ => horphan) rfl rfl) (if_congr (and_congr_right fun _ => hawaited) rfl rfl)
    rw [← hmarks, State.setPort_port, portsBut, portsBut]
    split_ifs with hq
    · subst hq
      rw [hports, flagsSet_closing hst]
    · exact hports q
  · have hcalled' : u.evalCalled = true ↔ s.evalCalled = true ∨ (allEntries.any fun e => frees p (s.entry e)) = true := by
      rw [hcalled, Bool.or_eq_true]
    refine hcalled'.trans (or_congr Iff.rfl ?_)
    rw [any_allEntries]
    exact exists_congr fun e => frees_iff p s.orphanTicks _

end Sys2Proof.Machine
end

section
/-! OBLIGATIONS. What no transaction of P1 to P3 changes. -/

namespace Sys2Proof.Machine

variable {s t : State}

/-! ## The frame of a host's transaction -/

/-- Nothing but entries, ports, the queue and the call for an evaluation differs, and every port keeps its state. -/
structure HostFrame (s t : State) : Prop where
  frame : t = { s with entries := t.entries, ports := t.ports, waitQueue := t.waitQueue, evalCalled := t.evalCalled }
  states : ∀ q, (t.port q).state = (s.port q).state

theorem HostFrame.refl (s : State) : HostFrame s s := ⟨rfl, fun _ => rfl⟩

theorem HostFrame.trans {u : State} (h : HostFrame s t) (h' : HostFrame t u) : HostFrame s u :=
  ⟨by rw [h'.frame, h.frame], fun q => (h'.states q).trans (h.states q)⟩

theorem hostFrame_setPort (s : State) (p : Port) {r : PortRec} (h : r.state = (s.port p).state) : HostFrame s (s.setPort p r) :=
  ⟨rfl, forall_setPort (motive := fun q r => r.state = (s.port q).state) h fun _ _ => rfl⟩

theorem hostFrame_modPort (s : State) (p : Port) {f : PortRec → PortRec} (h : (f (s.port p)).state = (s.port p).state) :
    HostFrame s (s.modPort p f) := hostFrame_setPort s p h

theorem hostFrame_answer (s : State) (p : Port) (a : Answer) : HostFrame s (s.answer p a) := hostFrame_setPort s p rfl

theorem HostFrame.done (h : HostFrame s t) (p : Port) : HostFrame s (t.done p) := h.trans (hostFrame_answer t p _)

theorem HostFrame.doneWord (h : HostFrame s t) (p : Port) (w : Word) : HostFrame s (t.doneWord p w) :=
  h.trans (hostFrame_answer t p _)

theorem hostFrame_refuse (s : State) (p : Port) (c : RefusalCode) (place : FaultPlace) : HostFrame s (s.refuse p c place) := by
  rw [State.refuse_eq]
  exact hostFrame_setPort s p rfl

theorem hostFrame_setNotice (s : State) (p : Port) (k : Notice) : HostFrame s (s.setNotice p k) := by
  rw [State.setNotice_eq]
  exact hostFrame_setPort s p rfl

theorem hostFrame_setSlot (s : State) (p : Port) (k : SlotNo) (x : Slot) : HostFrame s (s.setSlot p k x) :=
  hostFrame_setPort s p rfl

theorem hostFrame_of_marks (hm : PortsMarked s t)
    (hf : t = { s with entries := t.entries, ports := t.ports, waitQueue := t.waitQueue, evalCalled := t.evalCalled }) :
    HostFrame s t := ⟨hf, hm.state⟩

/-! ## Claims -/

theorem hostFrame_grantClaim (s : State) (p : Port) (k : SlotNo) (d : Descriptor) : HostFrame s (s.grantClaim p k d) := by
  obtain ⟨hm, hf⟩ := s.grantClaim_marks p k d
  exact hostFrame_of_marks hm (by rw [hf])

theorem hostFrame_walkStep (s : State) (c : ClaimId) : HostFrame s (s.walkStep c) := by
  unfold State.walkStep
  cases s.claimAt c with
  | none => exact HostFrame.refl s
  | some d =>
    dsimp only
    split_ifs
    · exact hostFrame_grantClaim s _ _ d
    · exact HostFrame.refl s

theorem hostFrame_walk (s : State) : HostFrame s s.walk := by
  unfold State.walk
  generalize s.waitQueue = l
  induction l generalizing s with
  | nil => exact HostFrame.refl s
  | cons c l ih => exact (hostFrame_walkStep s c).trans (ih _)

theorem hostFrame_contest (s : State) (d : Descriptor) : HostFrame s (s.contest d) := by
  obtain ⟨h, -⟩ := s.contest_entries d
  exact hostFrame_of_marks h.marks (by rw [h.frame])

theorem hostFrame_arrive (s : State) (p : Port) (k : SlotNo) (d : Descriptor) : HostFrame s (s.arrive p k d) := by
  have hwalk := hostFrame_walk s
  unfold State.arrive
  dsimp only
  generalize s.walk = u at hwalk ⊢
  generalize (if u.entryConflict d || claimConflict (u.claims u.waitQueue) d then DenialCause.conflict
    else DenialCause.tableFull) = cause
  split_ifs
  · exact hwalk.trans (hostFrame_grantClaim u p k d)
  · exact (hwalk.trans (hostFrame_setSlot u p k _)).trans (hostFrame_setNotice _ p _)
  · refine (hwalk.trans ?_).trans (hostFrame_contest _ d)
    exact hostFrame_of_marks (u.queued_marks p k _ _) rfl

theorem hostFrame_sendClaim (s : State) (p : Port) (k : SlotNo) (w : Word) (place : FaultPlace) :
    HostFrame s (s.sendClaim p k w place) := by
  unfold State.sendClaim
  dsimp only
  split_ifs
  · exact hostFrame_refuse s p _ _
  · exact hostFrame_refuse s p _ _
  · exact hostFrame_refuse s p _ _
  · exact (hostFrame_arrive s p k _).done p

theorem hostFrame_withdraw (s : State) (p : Port) (k : SlotNo) (d : Descriptor) : HostFrame s (s.withdraw p k d) := by
  obtain ⟨hm, hf⟩ := s.withdraw_marks p k d
  exact hostFrame_of_marks hm (by rw [hf])

theorem hostFrame_collectGrant (s : State) (p : Port) (k : SlotNo) (g : Grant) : HostFrame s (s.collectGrant p k g) := by
  unfold State.collectGrant
  exact ⟨rfl, (hostFrame_setSlot (s.modEntry g.handle.entry _) p k .empty).states⟩

theorem hostFrame_collectSlot (s : State) (p : Port) (k : SlotNo) (place : FaultPlace) :
    HostFrame s (s.collectSlot p k place) := by
  unfold State.collectSlot
  cases s.slot p k with
  | empty => exact hostFrame_refuse s p _ _
  | waiting d => exact hostFrame_answer s p _
  | granted d g => exact (hostFrame_collectGrant s p k g).doneWord p _
  | denied d c => exact (hostFrame_setSlot s p k _).doneWord p _

/-! ## The giving back of a grant (R19, R66, R67) -/

/-- A grant is given back: with the engine as it was, or its entry becomes FREE and the engine's command, which waited for that,
completes. -/
theorem State.giveBack_host (s : State) (p : Port) (k : SlotNo) (g : Grant) :
    HostFrame s (s.giveBack p k g) ∨
    (awaits s g.handle.entry = true ∧ ((s.giveBack p k g).entry g.handle.entry).state = .free ∧
      HostFrame { s with engine := none, result := s.engine.map fun c => ⟨c.code, .ok⟩ } (s.giveBack p k g)) := by
  have hgives := s.giveBack_gives p k g
  generalize s.giveBack p k g = t at hgives
  have hstates : ∀ q, (t.port q).state = (s.port q).state := fun q => by
    obtain ⟨m, hm⟩ := (turns_of_givesBack hgives).ports q
    obtain ⟨sl, hsl⟩ := slotsBut_portsBut s p k .empty q
    rw [hm, hsl]; rfl
  have hbecomes : ∀ {x marks}, becomes s t g.handle.entry x (portsBut s p (withSlot (s.port p) k .empty)) marks →
      HostFrame s t := fun {x marks} h => by
    obtain ⟨hframe, -, -, -, hengine, hresult, -⟩ := h
    exact ⟨by rw [hframe, hengine, hresult], hstates⟩
  unfold givesBack losesHolding leaves at hgives
  split_ifs at hgives
  · exact .inl (hbecomes hgives)
  · obtain ⟨hframe, -, hentry, -, hengine, hresult, -⟩ := hgives
    by_cases hw : awaits s g.handle.entry = true
    · rw [if_pos hw] at hengine hresult
      exact .inr ⟨hw, by rw [hentry]; rfl, ⟨by rw [hframe, hengine, hresult], hstates⟩⟩
    · rw [if_neg hw] at hengine hresult
      exact .inl ⟨by rw [hframe, hengine, hresult], hstates⟩
  · exact .inl (hbecomes hgives)
  · exact .inl (hbecomes hgives)

/-- A grant was cancelled, and that freed the entry that the engine waited for (R19, R35, R143). -/
structure CancelFrees (s t : State) (p : Port) (k : SlotNo) (d : Descriptor) (g : Grant) : Prop where
  slot : s.slot p k = .granted d g
  awaited : awaits s g.handle.entry = true
  free : (t.entry g.handle.entry).state = .free
  frame : HostFrame { s with engine := none, result := s.engine.map fun c => ⟨c.code, .ok⟩ } t

theorem State.cancelSlot_host (s : State) (p : Port) (k : SlotNo) (place : FaultPlace) :
    HostFrame s (s.cancelSlot p k place) ∨ ∃ d g, CancelFrees s (s.cancelSlot p k place) p k d g := by
  unfold State.cancelSlot
  cases h : s.slot p k with
  | empty => exact .inl (hostFrame_refuse s p _ _)
  | waiting d => exact .inl ((hostFrame_withdraw s p k d).done p)
  | denied d c => exact .inl ((hostFrame_setSlot s p k _).done p)
  | granted d g =>
    rcases s.giveBack_host p k g with hf | ⟨hw, hfree, hf⟩
    · exact .inl (hf.done p)
    · exact .inr ⟨d, g, h, hw, hfree, hf.done p⟩

/-! ## The pool -/

/-- A burst is accepted: the count of its entry and its port's record differ. -/
theorem hostFrame_accepted (s : State) (e : EntryId) (p : Port) {r : PortRec} (h : r.state = (s.port p).state) :
    HostFrame s ((s.raiseInFlight e).setPort p r) :=
  ⟨rfl, (hostFrame_setPort (s.raiseInFlight e) p h).states⟩

theorem hostFrame_takeWrite (s : State) (p : Port) (a : BitVec 22) (be : BitVec 4) (ws : List Word) :
    HostFrame s (s.takeWrite p a be ws) := by
  unfold State.takeWrite
  split_ifs
  · exact hostFrame_answer s p _
  · exact hostFrame_answer s p _
  · cases s.judgeBurst p a ws.length true with
    | error c => exact hostFrame_refuse s p _ _
    | ok e =>
      refine HostFrame.done ?_ p
      exact hostFrame_accepted s e p rfl

theorem hostFrame_judgeRead (s : State) (p : Port) (a : BitVec 22) (be len : BitVec 4) :
    HostFrame s (s.judgeRead p a be len) := by
  unfold State.judgeRead
  cases s.judgeBurst p a (len.toNat + 1) false with
  | error c =>
    dsimp only
    rw [State.refuseRead_eq]
    exact hostFrame_setPort s p rfl
  | ok e => exact hostFrame_accepted s e p rfl

theorem hostFrame_takeRead (s : State) (p : Port) (a : BitVec 22) (be len : BitVec 4) :
    HostFrame s (s.takeRead p a be len) := by
  unfold State.takeRead
  split_ifs
  · exact hostFrame_answer s p _
  · exact (hostFrame_answer s p _).trans (hostFrame_judgeRead _ p a be len)
  · exact (hostFrame_answer s p _).trans (hostFrame_setPort _ p rfl)

/-! ## The windows -/

theorem controlMap_offset : ∀ m ∈ controlMap, m.offset = m.reg.offset := by
  simp [controlMap, slotRows, Reg.offset]

theorem supervisorMap_offset : ∀ m ∈ supervisorMap, m.offset + 0x1000 = m.reg.offset := by
  simp [supervisorMap, holdRows, termRows, Reg.offset]

theorem find_offset {l : List MapRow} {n : Nat} {m : MapRow} (h : l.find? (fun r => r.offset == n) = some m) :
    m ∈ l ∧ m.offset = n := 
  ⟨List.mem_of_find?_eq_some h, by simpa using List.find?_some h⟩

/-- The address of a word is the one its row stands at. -/
theorem rowAt_addr {a : BitVec 22} {m : MapRow} (h : rowAt a = some m) : a = m.reg.addr := by
  have hoff : windowByte a = m.reg.offset := by
    unfold rowAt at h
    split_ifs at h with h1 h2
    · obtain ⟨hm, ho⟩ := find_offset h
      rw [← controlMap_offset m hm, ho]
    · obtain ⟨hm, ho⟩ := find_offset h
      rw [← supervisorMap_offset m hm]
      omega
  apply BitVec.eq_of_toNat_eq
  unfold windowByte at hoff
  rw [Reg.addr, ← hoff, BitVec.toNat_ofNat]
  omega

/-- What a transaction that passed the judgments reached. -/
theorem State.judgeAccess_ok {p : Port} {len : BitVec 4} {a : BitVec 22} {write : Bool} {r : Reg}
    (h : s.judgeAccess p len a write = .ok r) : len = 0 ∧ a = r.addr ∧ (p ≠ 0 → inSupervisorWindow a = false) := by
  unfold State.judgeAccess at h
  dsimp only at h
  cases hm : rowAt a with
  | none =>
    rw [hm] at h
    split_ifs at h
  | some m =>
    simp only [hm] at h
    split_ifs at h with h1 h2 h3
    all_goals exact ⟨not_not.1 h3, Except.ok.inj h ▸ rowAt_addr hm, fun hp => by simpa [hp] using h2⟩

/-- What becomes of a window transaction: not taken, refused, or given to its word. -/
theorem State.access_host {p : Port} {len : BitVec 4} {a : BitVec 22} {write : Bool} {own : Reg → State → State}
    (h : s.access p len a write own = t) :
    HostFrame s t ∨ ∃ r, len = 0 ∧ a = r.addr ∧ (p ≠ 0 → inSupervisorWindow a = false) ∧ own r s = t := by
  unfold State.access State.transact at h
  split_ifs at h
  · cases hj : s.judgeAccess p len a write with
    | error c =>
      simp only [hj] at h
      cases c with
      | portClosed => exact .inl (h ▸ hostFrame_answer s p _)
      | _ => exact .inl (h ▸ hostFrame_refuse s p _ _)
    | ok r =>
      simp only [hj] at h
      obtain ⟨hlen, ha, hsup⟩ := State.judgeAccess_ok hj
      exact .inr ⟨r, hlen, ha, hsup, h⟩
  · exact .inl (h ▸ HostFrame.refl s)

theorem hostFrame_access {p : Port} {len : BitVec 4} {a : BitVec 22} {write : Bool} {own : Reg → State → State}
    (hown : ∀ r, a = r.addr → (p ≠ 0 → inSupervisorWindow a = false) → HostFrame s (own r s)) :
    HostFrame s (s.access p len a write own) := by
  rcases State.access_host (s := s) (own := own) rfl with h | ⟨r, -, ha, hsup, h⟩
  · exact h
  · rw [← h]
    exact hown r ha hsup

/-- A write at a word of the supervisor window is refused to P1 to P3 (R136). -/
theorem hostFrame_writeAt_supervisor {p : Port} (hp : p ≠ 0) {len : BitVec 4} {r : Reg} {own : State → State}
    (hr : inSupervisorWindow r.addr = true) : HostFrame s (s.writeAt p len r own) :=
  hostFrame_access fun _ _ hsup => by rw [hsup hp] at hr; cases hr

theorem hostFrame_writeAt {p : Port} {len : BitVec 4} {r : Reg} {own : State → State} (hown : HostFrame s (own s)) :
    HostFrame s (s.writeAt p len r own) := hostFrame_access fun _ _ _ => hown

theorem hostFrame_acknowledge (s : State) (p : Port) (w : Word) : HostFrame s (s.acknowledge p w) :=
  (hostFrame_modPort s p rfl).done p

theorem hostFrame_setEnables (s : State) (p : Port) (w : Word) : HostFrame s (s.setEnables p w) :=
  (hostFrame_modPort s p rfl).done p

theorem hostFrame_clearFault (s : State) (p : Port) : HostFrame s (s.clearFault p) :=
  (hostFrame_modPort s p rfl).done p

theorem hostFrame_takeView (s : State) (p : Port) (w : Word) : HostFrame s (s.takeView p w) :=
  (hostFrame_modPort s p rfl).done p

theorem hostFrame_writeStaging (s : State) (p : Port) (k : SlotNo) (w : Word) : HostFrame s (s.writeStaging p k w) :=
  (hostFrame_modPort s p rfl).done p

theorem hostFrame_postItem (s : State) (p : Port) (w : Word) : HostFrame s (s.postItem p w) := by
  unfold State.postItem
  split_ifs
  · exact (hostFrame_modPort s p rfl).done p
  · exact hostFrame_answer s p _

theorem termWords_supervisor : ∀ n, inSupervisorWindow (Reg.defaultTerm n).addr = true ∧
    inSupervisorWindow (Reg.termCap n).addr = true := by decide

/-- A write that passed the judgments at a word outside the supervisor window. -/
theorem hostFrame_writeReg {r : Reg} (hr : inSupervisorWindow r.addr = false) (hk : ∀ k, r ≠ .slotCancel k) (p : Port)
    (a : BitVec 22) (w : Word) : HostFrame s (s.writeReg p a w r) := by
  cases r with
  | noticePending => exact hostFrame_acknowledge s p w
  | noticeEnable => exact hostFrame_setEnables s p w
  | faultClear => exact hostFrame_clearFault s p
  | holdQueue => exact hostFrame_postItem s p w
  | viewIndex => exact hostFrame_takeView s p w
  | slotDescA k => exact hostFrame_writeStaging s p k w
  | slotDescB k => exact hostFrame_sendClaim s p k w _
  | slotCancel k => exact absurd rfl (hk k)
  | defaultTerm n => rw [(termWords_supervisor n).1] at hr; cases hr
  | termCap n => rw [(termWords_supervisor n).2] at hr; cases hr
  | command => exact absurd hr (by decide)
  | cmdArg => exact absurd hr (by decide)
  | supViewIndex => exact absurd hr (by decide)
  | collectTicks => exact absurd hr (by decide)
  | graceTicks => exact absurd hr (by decide)
  | orphanTicks => exact absurd hr (by decide)
  | prescaleDiv => exact absurd hr (by decide)
  | tickDiv => exact absurd hr (by decide)
  | tickEnable => exact absurd hr (by decide)
  | _ => exact hostFrame_refuse s p _ _

theorem hostFrame_readReg (s : State) (p : Port) (a : BitVec 22) (r : Reg) : HostFrame s (s.readReg p a r) := by
  by_cases h : ∀ k, r ≠ .slotCollect k
  · rw [State.readReg_eq h]
    exact hostFrame_answer s p _
  · simp only [not_forall, not_not] at h
    obtain ⟨k, rfl⟩ := h
    exact hostFrame_collectSlot s p k _

/-! ## Every transaction of P1 to P3 (R136, R139) -/

theorem hostFrame_transact {p : Port} {f : State → State} (h : HostFrame s (f s)) : HostFrame s (s.transact p f) := by
  unfold State.transact
  split_ifs
  · exact h
  · exact HostFrame.refl s

/-- A transaction of P1 to P3 leaves its frame, or cancels a grant whose entry the engine waits for. -/
theorem hostFrame_or_cancelFrees {c : Instr} {p : Port} (hc : c.presenter = some p) (hp : p ≠ 0) (h : exec c s = .next t) :
    HostFrame s t ∨ ∃ k w d g, (c = .slotCancel p 0 k w ∨ c = .registerWrite p 0 (Reg.slotCancel k).addr w) ∧
      CancelFrees s t p k d g := by
  cases c with
  | poolWrite q a be ws =>
    obtain rfl := Option.some.inj hc
    simp only [exec, execPoolWrite] at h
    split_ifs at h
    obtain rfl := Host.Outcome.next.inj h
    exact .inl (hostFrame_transact (hostFrame_takeWrite s q a be ws))
  | poolRead q a be len =>
    obtain rfl := Option.some.inj hc
    obtain rfl := Host.Outcome.next.inj h
    exact .inl (hostFrame_transact (hostFrame_takeRead s q a be len))
  | slotDescB q len k w =>
    obtain rfl := Option.some.inj hc
    obtain rfl := Host.Outcome.next.inj h
    exact .inl (hostFrame_writeAt (hostFrame_sendClaim s q k w _))
  | slotCancel q len k w =>
    obtain rfl := Option.some.inj hc
    have hacc : s.access q len (Reg.slotCancel k).addr true _ = t := Host.Outcome.next.inj h
    rcases State.access_host hacc with hf | ⟨-, rfl, -, -, rfl⟩
    · exact .inl hf
    exact (s.cancelSlot_host q k _).imp_right fun ⟨d, g, hf⟩ => ⟨k, w, d, g, .inl rfl, hf⟩
  | slotCollect q len k =>
    obtain rfl := Option.some.inj hc
    obtain rfl := Host.Outcome.next.inj h
    exact .inl (hostFrame_access fun _ _ _ => hostFrame_collectSlot s q k _)
  | holdQueue q len w =>
    obtain rfl := Option.some.inj hc
    obtain rfl := Host.Outcome.next.inj h
    exact .inl (hostFrame_writeAt (hostFrame_postItem s q w))
  | viewIndex q len w =>
    obtain rfl := Option.some.inj hc
    obtain rfl := Host.Outcome.next.inj h
    exact .inl (hostFrame_writeAt (hostFrame_takeView s q w))
  | noticePending q len w =>
    obtain rfl := Option.some.inj hc
    obtain rfl := Host.Outcome.next.inj h
    exact .inl (hostFrame_writeAt (hostFrame_acknowledge s q w))
  | noticeEnable q len w =>
    obtain rfl := Option.some.inj hc
    obtain rfl := Host.Outcome.next.inj h
    exact .inl (hostFrame_writeAt (hostFrame_setEnables s q w))
  | faultClear q len w =>
    obtain rfl := Option.some.inj hc
    obtain rfl := Host.Outcome.next.inj h
    exact .inl (hostFrame_writeAt (hostFrame_clearFault s q))
  | registerWrite q len a w =>
    obtain rfl := Option.some.inj hc
    have hacc : s.access q len a true _ = t := Host.Outcome.next.inj h
    rcases State.access_host hacc with hf | ⟨r, rfl, rfl, hsup, rfl⟩
    · exact .inl hf
    by_cases hr : ∀ k, r ≠ .slotCancel k
    · exact .inl (hostFrame_writeReg (hsup hp) hr q _ w)
    · simp only [not_forall, not_not] at hr
      obtain ⟨k, rfl⟩ := hr
      exact (s.cancelSlot_host q k _).imp_right fun ⟨d, g, hf⟩ => ⟨k, w, d, g, .inr rfl, hf⟩
  | controlWindowRead q len a =>
    obtain rfl := Option.some.inj hc
    obtain rfl := Host.Outcome.next.inj h
    exact .inl (hostFrame_access fun r _ _ => hostFrame_readReg s q a r)
  | supViewIndex q len w =>
    obtain rfl := Option.some.inj hc
    obtain rfl := Host.Outcome.next.inj h
    exact .inl (hostFrame_writeAt_supervisor hp (by decide))
  | tickEnable q len w =>
    obtain rfl := Option.some.inj hc
    obtain rfl := Host.Outcome.next.inj h
    exact .inl (hostFrame_writeAt_supervisor hp (by decide))
  | openPort q len | closePort q len | recallLease q len | revokeLease q len | adoptLease q len | retireLease q len
  | setPool q len | partReset q len | unknownCommand q len code =>
    obtain rfl := Option.some.inj hc
    obtain rfl := Host.Outcome.next.inj h
    exact .inl (hostFrame_writeAt_supervisor hp (by decide))
  | _ => cases hc

/-- Settles O49, by `hostFrame_or_cancelFrees`. -/
theorem onlySupervisorConfigures : Obligations.OnlySupervisorConfigures := by
  intro c p s t hc hp h
  rcases hostFrame_or_cancelFrees hc hp h with ⟨hf, hstates⟩ | ⟨k, w, d, g, hcmd, hslot, hw, hfree, hf, hstates⟩
  · rw [hf]
    refine ⟨rfl, rfl, rfl, rfl, rfl, rfl, rfl, rfl, rfl, rfl, rfl, rfl, rfl, rfl, .inl ⟨rfl, rfl⟩, ?_⟩
    rw [← hf]
    exact hstates
  · have hlive : GrantHasHolding s → (s.entry g.handle.entry).state = .live := fun hg => by
      obtain ⟨hlive, -⟩ := hg p k (d, g) (by rw [hslot]; rfl)
      exact hlive
    have hengine : t.engine = none := by rw [hf]
    have hresult : t.result = s.engine.map fun x => ⟨x.code, .ok⟩ := by rw [hf]
    refine ⟨?_, ?_, ?_, ?_, ?_, ?_, ?_, ?_, ?_, ?_, ?_, ?_, ?_, ?_,
      .inr ⟨k, w, d, g, g.handle.entry, hcmd, hslot, rfl, hw, hfree, hlive, hengine, hresult⟩, hstates⟩ <;> rw [hf]

end Sys2Proof.Machine
end

section
/-! OBLIGATIONS. The wait queue is the list of the WAITING claims. Every event keeps this by itself, in any state: it needs no
other law of the tables. -/

namespace Sys2Proof.Machine

variable {s t : State}

/-! ## The claims under each event (R33) -/

theorem setPort_claimAt {p : Port} {r : PortRec} (h : r.slots = (s.port p).slots) (c : ClaimId) :
    (s.setPort p r).claimAt c = s.claimAt c := by
  refine State.claimAt_of_slot ?_
  rw [State.slot, forall_setPort (motive := fun q r => r.slots = (s.port q).slots) h fun _ _ => rfl]
  rfl

theorem setSlot_empty_claimAt {p : Port} {k : SlotNo} {d : Descriptor} {g : Grant} (h : s.slot p k = .granted d g)
    (c : ClaimId) : (s.setSlot p k .empty).claimAt c = s.claimAt c := by
  unfold State.claimAt
  rw [State.setSlot_slot]
  split_ifs with hc
  · rw [hc.1, hc.2, h]
  · rfl

/-- An event at one entry leaves the claims that its ports' slots have. -/
theorem Turns.claimAt {e : EntryId} {x : Entry} {before : Port → PortRec} {u : State} (h : Turns s t e x before)
    (hb : ∀ q k, (before q).slots.look k = u.slot q k) (c : ClaimId) : t.claimAt c = u.claimAt c :=
  State.claimAt_of_slot ((h.slots c.port c.slot).trans (hb c.port c.slot))

/-- An event at one entry that grants nothing keeps every claim: a slot that it empties was GRANTED. -/
theorem LeaseEvent.claimAt {e : EntryId} (h : LeaseEvent s t e) (c : ClaimId) : t.claimAt c = s.claimAt c := by
  have same : ∀ q k, (s.port q).slots.look k = s.slot q k := fun _ _ => rfl
  have emptied : ∀ p k q j, (portsBut s p (withSlot (s.port p) k .empty) q).slots.look j = (s.setSlot p k .empty).slot q j :=
    fun p k q j => by rw [← State.setPort_port]; rfl
  cases h with
  | handed e _ => exact (s.handed_turns e).claimAt same c
  | ticked e =>
    obtain ⟨x, ht, -⟩ := s.tickEntry_turns e
    exact ht.claimAt same c
  | released e p _ _ => exact (turns_of_losesHolding (s.removeHolding_loses e p)).claimAt same c
  | renewed e p term _ _ => exact (s.renewed_turns e p term).claimAt same c
  | recalled e _ => exact (turns_of_becomes (s.forceRecall_becomes e)).claimAt same c
  | givenBack p k d g hg =>
    exact ((turns_of_givesBack (s.giveBack_gives p k g)).claimAt (emptied p k) c).trans (setSlot_empty_claimAt hg c)
  | collected p k d g hg => exact ((s.collectGrant_turns p k g).claimAt (emptied p k) c).trans (setSlot_empty_claimAt hg c)
  | vacated e p _ hp => exact (s.vacateEntry_turns p e hp).claimAt same c
  | revoked e _ =>
    have hsl := (s.dissolve_turns e).slots c.port c.slot
    rw [grantsEmptied_look] at hsl
    split_ifs at hsl with hn
    · obtain ⟨d, g, hg, -⟩ := grantNames_iff.1 hn
      have hslot : s.slot c.port c.slot = .granted d g := hg
      simp only [State.claimAt, hsl, hslot]
    · exact State.claimAt_of_slot hsl
  | retired e _ => exact (turns_of_leaves (s.leave_leaves e)).claimAt same c

/-- A claim that is granted is gone from its slot and from the queue. -/
theorem State.grantClaim_claimAt {p : Port} {k : SlotNo} {d : Descriptor}
    (hr : (s.joinTarget p d).isSome = true ∨ s.lowestFree.isSome = true) :
    (s.grantClaim p k d).waitQueue = s.waitQueue.erase ⟨p, k⟩ ∧
    ∀ c, (s.grantClaim p k d).claimAt c = if c = ⟨p, k⟩ then none else s.claimAt c := by
  have key : ∀ e y g, ∀ c, (s.granted e y p k (.granted d g)).claimAt c = if c = ⟨p, k⟩ then none else s.claimAt c := by
    rintro e y g ⟨q, j⟩
    simp only [State.claimAt, State.granted_slot, ClaimId.mk.injEq]
    split_ifs <;> rfl
  cases hj : s.joinTarget p d with
  | some e => rw [State.grantClaim_join k hj]; exact ⟨rfl, key _ _ _⟩
  | none =>
    cases hf : s.lowestFree with
    | some e => rw [State.grantClaim_new k hj hf]; exact ⟨rfl, key _ _ _⟩
    | none => simp [hj, hf] at hr

/-- An adoption takes an EMPTY slot, in which no claim waits. -/
theorem State.adopt_claimAt {p : Port} {k : SlotNo} (h : Handle) (hk : s.slot p k = .empty) (c : ClaimId) :
    (s.adopt h p k).claimAt c = s.claimAt c := by
  unfold State.claimAt
  rw [State.adopt_slot]
  split_ifs with hc
  · rw [hc.1, hc.2, hk]
  · rfl

/-! ## Every event (R33) -/

/-- Every event keeps the queue the list of the WAITING claims, each once. -/
theorem Event.queueLaw (h : Event s t) (hs : QueueLaw s) : QueueLaw t := by
  cases h with
  | books h => exact queueLaw_of_same h.queue h.claim hs
  | lease h =>
    obtain ⟨x, before, ht, -⟩ := h.turns
    exact queueLaw_of_same ht.queue h.claimAt hs
  | granted p k d _ _ hr =>
    obtain ⟨hqueue, hclaim⟩ := State.grantClaim_claimAt hr
    exact queueLaw_erase hqueue hclaim hs
  | adopted h p k _ _ _ hk _ =>
    obtain ⟨-, hqueue, -⟩ := s.adopt_marks h p k
    exact queueLaw_of_same hqueue (State.adopt_claimAt h hk) hs
  | waits p k d hk hr hp => exact (State.contest_waits hk hr hp).queueLaw hs
  | withdrawn p k d hk =>
    have hw := State.withdraw_withdrawn hk
    exact queueLaw_erase hw.queue hw.claimAt hs
  | wrote p w _ _ =>
    exact queueLaw_of_same (s := s) rfl (setPort_claimAt (s := s.raiseInFlight w.entry) (p := p)
      (r := { s.port p with writeBuffer := (s.port p).writeBuffer ++ [w] }) rfl) hs
  | accepted p rd e _ _ _ _ =>
    exact queueLaw_of_same (s := s) rfl (setPort_claimAt (s := s.raiseInFlight e) (p := p)
      (r := { s.port p with read := some rd }) rfl) hs
  | read p r _ hsl _ _ _ _ => exact queueLaw_of_same (s := s) rfl (setPort_claimAt hsl) hs
  | carries _ hp hq _ =>
    exact queueLaw_of_same hq (fun c => State.claimAt_of_slot (by rw [State.slot, State.port, hp]; rfl)) hs
  | finished b c _ _ =>
    have ht := s.endBurst_turns c
    refine queueLaw_of_same ht.queue (fun i => ht.claimAt (u := s) (fun q k => ?_) i) hs
    unfold portsBut
    split_ifs with hq
    · rw [hq, (burstDone_tables c _).2]; rfl
    · rfl
  | reset =>
    have hslot : ∀ q k, s.partReset.slot q k = .empty := fun q k => by
      rw [State.slot, State.partReset_port, (afterReset_cleared _ _ _).1]
      simp [Table.look, Vector.get_eq_getElem]
    refine ⟨List.nodup_nil, fun p k => ?_⟩
    rw [State.claimAt, hslot]
    exact iff_of_false List.not_mem_nil Bool.false_ne_true

theorem queueLaw_of_events (h : Events s t) (hs : QueueLaw s) : QueueLaw t := by
  induction h with
  | refl => exact hs
  | tail _ h ih => exact h.queueLaw ih

/-- Settles O56, by `step_events`: every event keeps the queue. -/
theorem queueLawKeptByEveryStep : Obligations.QueueLawKeptByEveryStep := by
  intro s t hst hs
  exact queueLaw_of_events (step_events hst) hs

end Sys2Proof.Machine
end

section
/-! OBLIGATIONS. The words that only take their value, and the checks of a claim that is sent. -/

namespace Sys2Proof.Machine

variable {s : State}

/-! ## A window write that passes its judgments (R161) -/

/-- A single-word write of an OPEN port at a writable word with a row of its own. -/
theorem State.writeAt_of_row {p : Port} {r : Reg} {m : MapRow} {own : State → State} (hp : serves s p)
    (hw : p = 0 ∨ inSupervisorWindow r.addr = false) (hm : rowAt r.addr = some m) (hr : m.writable = true) :
    s.writeAt p 0 r own = own s := State.access_of_row hp hw hm hr

/-- A single-word write of an OPEN port at a writable word. -/
theorem exec_registerWrite_of_row {p : Port} {a : BitVec 22} {w : Word} {m : MapRow} (hp : serves s p)
    (hw : p = 0 ∨ inSupervisorWindow a = false) (hm : rowAt a = some m) (hr : m.writable = true) :
    exec (.registerWrite p 0 a w) s = .next (s.writeReg p a w m.reg) :=
  congrArg Host.Outcome.next (State.access_of_row hp hw hm hr)

/-! ## The words that take their value (R26, R113, R114, R118, R137, R158) -/

theorem rowAt_slotDescA : ∀ k : SlotNo, inSupervisorWindow (Reg.slotDescA k).addr = false ∧
    rowAt (Reg.slotDescA k).addr = some ⟨0x080 + 0x20 * k.val, .slotDescA k, true, true⟩ := by decide

theorem rowAt_terms : ∀ n : Port,
    rowAt (Reg.defaultTerm n).addr = some ⟨0x060 + 0x8 * n.val, .defaultTerm n, true, true⟩ ∧
    rowAt (Reg.termCap n).addr = some ⟨0x064 + 0x8 * n.val, .termCap n, true, true⟩ := by decide

/-- A replacement of one port's record that is answered DONE in the same event. -/
theorem State.modPort_done (s : State) (p : Port) (f : PortRec → PortRec) :
    (s.modPort p f).done p = s.setPort p (answered (f (s.port p)) (.done [])) := by
  rw [State.modPort_eq, State.done_eq, State.setPort_setPort, State.setPort_port_self]

/-- Settles O37: each write passes its judgments, and its word takes the value. -/
theorem plainWordsTakeTheirValue : Obligations.PlainWordsTakeTheirValue := by
  refine ⟨fun p k w s hp => ⟨?_, ?_⟩, ?_⟩
  · rw [exec, execFaultClear, State.writeAt_of_row hp (.inr (by decide)) (m := ⟨0x018, .faultClear, false, true⟩) (by decide) rfl,
      State.clearFault, State.modPort_done]
    rfl
  · obtain ⟨hin, hrow⟩ := rowAt_slotDescA k
    rw [exec_registerWrite_of_row hp (.inr hin) hrow rfl]
    exact congrArg Host.Outcome.next (s.modPort_done p _)
  · rintro w n s u hp rfl
    obtain ⟨hdefault, hcap⟩ := rowAt_terms n
    refine ⟨?_, ?_, ?_, ?_, ?_, ?_, ?_, ?_, ?_⟩
    · exact congrArg Host.Outcome.next
        (State.writeAt_of_row hp (.inl rfl) (m := ⟨0x058, .tickEnable, true, true⟩) (by decide) rfl)
    · exact exec_registerWrite_of_row hp (.inl rfl) (m := ⟨0x050, .prescaleDiv, true, true⟩) (by decide) rfl
    · exact exec_registerWrite_of_row hp (.inl rfl) (m := ⟨0x054, .tickDiv, true, true⟩) (by decide) rfl
    · exact exec_registerWrite_of_row hp (.inl rfl) (m := ⟨0x004, .cmdArg, true, true⟩) (by decide) rfl
    · exact exec_registerWrite_of_row hp (.inl rfl) (m := ⟨0x04C, .orphanTicks, true, true⟩) (by decide) rfl
    · exact exec_registerWrite_of_row hp (.inl rfl) (m := ⟨0x044, .collectTicks, true, true⟩) (by decide) rfl
    · exact exec_registerWrite_of_row hp (.inl rfl) (m := ⟨0x048, .graceTicks, true, true⟩) (by decide) rfl
    · exact exec_registerWrite_of_row hp (.inl rfl) hdefault rfl
    · exact exec_registerWrite_of_row hp (.inl rfl) hcap rfl

/-! ## The checks of a claim (R27 to R29) -/

theorem valid_iff (r : PageRange) (pages : BitVec 15) :
    r.valid pages = true ↔ r.count ≠ 0 ∧ r.base.toNat + r.count.toNat ≤ pages.toNat := by
  simp [PageRange.valid]

theorem rowAt_slotDescB : ∀ k : SlotNo, inSupervisorWindow (Reg.slotDescB k).addr = false ∧
    rowAt (Reg.slotDescB k).addr = some ⟨0x080 + 0x20 * k.val + 0x04, .slotDescB k, true, true⟩ := by decide

theorem exec_slotDescB {p : Port} (hp : serves s p) (k : SlotNo) (w : Word) :
    exec (.slotDescB p 0 k w) s = .next (s.sendClaim p k w (controlPlace (Reg.slotDescB k).addr)) := by
  obtain ⟨hin, hrow⟩ := rowAt_slotDescB k
  rw [exec, execSlotDescB, State.writeAt_of_row hp (.inr hin) hrow rfl]

/-- A claim that passes its three checks arrives. -/
theorem State.sendClaim_arrives {p : Port} {k : SlotNo} (w : Word) (place : FaultPlace) (hk : s.slot p k = .empty)
    (hv : ((s.port p).staging.look k).valid s.poolPages = true)
    (ho : s.overlapsOwn p ((s.port p).staging.look k) = false) :
    s.sendClaim p k w place = (s.arrive p k (descriptorOf ((s.port p).staging.look k) w)).done p := by
  simp [State.sendClaim, hk, hv, ho]

/-- Settles O26: the checks stand in this order, each with its refusal. -/
theorem claimRefusedByThreeChecks : Obligations.ClaimRefusedByThreeChecks := by
  rintro p k w s range place hp rfl rfl
  rw [exec_slotDescB hp, State.sendClaim]
  refine ⟨fun hk => ?_, fun hk hbad => ?_, fun hk hcount hfits hown => ?_⟩
  · rw [if_pos hk, State.refuse_eq]
  · have hv : ¬((s.port p).staging.look k).valid s.poolPages = true := by
      rw [valid_iff]
      rintro ⟨hcount, hfits⟩
      exact hbad.elim hcount (Nat.not_lt.2 hfits)
    rw [if_neg (not_not.2 hk), if_pos (by simpa using hv), State.refuse_eq]
  · have hv := (valid_iff _ _).2 ⟨hcount, hfits⟩
    have ho := (s.overlapsOwn_iff p _).2 hown
    rw [if_neg (not_not.2 hk), if_neg (by simp [hv]), if_pos ho, State.refuse_eq]

end Sys2Proof.Machine
end

section
/-! OBLIGATIONS. The arrival of a claim: it is granted, denied, or waits and contests. -/

namespace Sys2Proof.Machine

variable {s : State}

/-! ## Whom a new claim recalls (R55, R78) -/

/-- The entry becomes contested by the claim, and an OVERDUE holding of the port is recalled in it. -/
abbrev recalledBy (d : Descriptor) (x : Entry) (q : Port) : Prop :=
  x.conflicts d = true ∧ x.contested = false ∧ x.state = .live ∧ ∃ h ∈ x.holdings, h.port = q ∧ h.state = .overdue

/-- What a new claim does at one entry (R55). -/
def State.contestAt (d : Descriptor) (s : State) (e : EntryId) : State :=
  if (s.entry e).conflicts d && !(s.entry e).contested then s.reportContested e else s

theorem State.contestAt_does (s : State) (d : Descriptor) (e : EntryId) : othersKept s (s.contestAt d e) e ∧
    ∀ q, (s.contestAt d e).port q = flagsSet (s.port q) (if recalledBy d (s.entry e) q then 0x04 else 0) := by
  unfold State.contestAt
  by_cases hc : (s.entry e).conflicts d = true ∧ (s.entry e).contested = false
  · obtain ⟨hd, hn⟩ := hc
    obtain ⟨-, hothers, -, -, -, -, hports⟩ :=
      s.reportContested_becomes e fun hf => by simp [entry_conflicts_free hf] at hd
    rw [if_pos (by simp [hd, hn])]
    refine ⟨hothers, fun q => (hports q).trans (congrArg _ (if_congr ?_ rfl rfl))⟩
    simp only [recalledBy, hd, hn, true_and, List.mem_map, List.mem_filter, beq_iff_eq]
    exact and_congr_right fun _ => exists_congr fun h => by tauto
  · rw [if_neg (by simpa using hc)]
    refine ⟨fun _ _ => rfl, fun q => ?_⟩
    rw [if_neg fun ⟨hd, hn, _⟩ => hc ⟨hd, hn⟩]
    exact (flagsSet_zero _).symm

/-- A flag asked for on two grounds. -/
theorem flag_or (m : BitVec 8) (a b : Prop) [Decidable a] [Decidable b] :
    ((if a then m else 0) ||| if b then m else 0) = if a ∨ b then m else 0 := by
  by_cases ha : a <;> by_cases hb : b <;> simp [ha, hb]

/-- The entries of a list, in turn: each port is told once if any of them recalls a holding of it. -/
theorem foldl_contestAt (d : Descriptor) (l : List EntryId) (hl : l.Nodup) (s : State) (q : Port) :
    (l.foldl (State.contestAt d) s).port q =
      flagsSet (s.port q) (if ∃ e ∈ l, recalledBy d (s.entry e) q then 0x04 else 0) := by
  induction l generalizing s with
  | nil => simp
  | cons e l ih =>
    obtain ⟨hn, hl⟩ := List.nodup_cons.1 hl
    obtain ⟨hothers, hports⟩ := s.contestAt_does d e
    have hrest : (∃ f ∈ l, recalledBy d ((s.contestAt d e).entry f) q) ↔ ∃ f ∈ l, recalledBy d (s.entry f) q :=
      exists_congr fun f => and_congr_right fun hf => by rw [hothers f (by rintro rfl; exact hn hf)]
    rw [List.foldl_cons, ih hl, hports, flagsSet_flagsSet, if_congr hrest rfl rfl]
    refine congrArg _ ((flag_or _ _ _).trans (if_congr ?_ rfl rfl))
    exact (List.exists_mem_cons_iff (fun f => recalledBy d (s.entry f) q) e l).symm

theorem State.contest_port (s : State) (d : Descriptor) (q : Port) :
    (s.contest d).port q = flagsSet (s.port q) (if ∃ e, recalledBy d (s.entry e) q then 0x04 else 0) := by
  refine (foldl_contestAt d allEntries (List.nodup_finRange 64) s q).trans (congrArg _ (if_congr ?_ rfl rfl))
  simp [allEntries]

/-! ## The three ways (R30 to R32, R48, R50) -/

/-- Why a no-wait claim that is not grantable is denied (R50). -/
theorem State.denialCause_eq (u : State) (d : Descriptor) :
    (if u.entryConflict d || claimConflict (u.claims u.waitQueue) d then DenialCause.conflict else .tableFull) =
      if (∃ e, (u.entry e).conflicts d = true) ∨ (∃ c ∈ u.claims u.waitQueue, c.conflicts d = true) then .conflict
      else .tableFull :=
  if_congr (by simp [State.entryConflict, claimConflict, allEntries]) rfl rfl

/-- A claim that waits, answered DONE: the queue's tail, the entries that it contests and the ports that it recalls. -/
theorem State.waits_done (u : State) (p : Port) (k : SlotNo) (d : Descriptor) :
    let t := ((u.queued p k (.waiting d) (u.waitQueue ++ [⟨p, k⟩])).contest d).done p
    t = { u with entries := t.entries, ports := t.ports, waitQueue := u.waitQueue ++ [⟨p, k⟩] } ∧
    (∀ e, t.entry e = contestedBy d u.graceTicks (u.entry e)) ∧
    ∀ q, t.port q = flagsSet (portsBut u p (answered (withSlot (u.port p) k (.waiting d)) (.done [])) q)
      (if ∃ e, recalledBy d (u.entry e) q then 0x04 else 0) := by
  have hports := (u.queued p k (.waiting d) (u.waitQueue ++ [⟨p, k⟩])).contest_port d
  obtain ⟨⟨hframe, -, -⟩, hentries⟩ := (u.queued p k (.waiting d) (u.waitQueue ++ [⟨p, k⟩])).contest_entries d
  have hold : ∀ q, (u.queued p k (.waiting d) (u.waitQueue ++ [⟨p, k⟩])).port q =
      portsBut u p (withSlot (u.port p) k (.waiting d)) q := fun q => u.setPort_port p q _
  generalize (u.queued p k (.waiting d) (u.waitQueue ++ [⟨p, k⟩])).contest d = v at hports hframe hentries ⊢
  refine ⟨?_, hentries, fun q => ?_⟩
  · rw [State.done_eq, hframe]; rfl
  · rw [State.done_eq, State.setPort_port]
    by_cases hq : q = p
    · subst hq
      rw [portsBut, if_pos rfl, hports, hold, portsBut, if_pos rfl, portsBut, if_pos rfl, answered_flagsSet]
      rfl
    · rw [portsBut, if_neg hq, hports, hold, portsBut, if_neg hq, portsBut, if_neg hq]
      rfl

/-- Settles O27: past its checks the claim is judged after the walk, by the three branches of `arrive`. -/
theorem claimArrivesInOneOfThreeWays : Obligations.ClaimArrivesInOneOfThreeWays := by
  rintro p k w s u d hp hk hv ho rfl rfl
  rw [exec_slotDescB hp, State.sendClaim_arrives w _ hk hv ho, State.arrive]
  generalize descriptorOf ((s.port p).staging.look k) w = d
  generalize s.walk = u
  dsimp only
  refine ⟨fun hg => ?_, fun hg hn => ?_, fun hg hn => ?_⟩
  · rw [if_pos hg]
    rfl
  · rw [if_neg (by simp [hg]), if_pos hn, State.denialCause_eq, State.setNotice_eq, State.setSlot_eq, State.setPort_setPort,
      State.setPort_port_self, State.done_eq, State.setPort_setPort, State.setPort_port_self]
    rfl
  · rw [if_neg (by simp [hg]), if_neg (by simp [hn])]
    exact ⟨_, rfl, u.waits_done p k d⟩

end Sys2Proof.Machine
end

section
/-! OBLIGATIONS. A slot emptied by its port: the cancel of a claim, and the third stage of a close. -/

namespace Sys2Proof.Machine

variable {s : State}

/-! ## A claim withdrawn (R34, R40, R56, R79) -/

/-- The end of a contest touches entries alone: no port is told (R79). -/
theorem State.uncontest_ports (s : State) (d : Descriptor) : (s.uncontest d).ports = s.ports := by
  unfold State.uncontest
  induction allEntries generalizing s with
  | nil => rfl
  | cons e l ih =>
    rw [List.foldl_cons, ih]
    split_ifs
    · rw [State.reportUncontested_eq]; rfl
    · rfl

theorem State.withdraw_withdraws {p : Port} {k : SlotNo} {d : Descriptor} (hk : s.slot p k = .waiting d) :
    withdraws s (s.withdraw p k d) p k d := by
  obtain ⟨-, hframe⟩ := s.withdraw_marks p k d
  refine ⟨hframe, (State.withdraw_withdrawn hk).entry, fun q => ?_⟩
  have hports := (s.queued p k .empty (s.waitQueue.erase ⟨p, k⟩)).uncontest_ports d
  rw [State.withdraw_eq, State.port, hports]
  exact s.setPort_port p q _

/-! ## SLOT_CANCEL (R35, R36) -/

theorem rowAt_slotCancel : ∀ k : SlotNo, inSupervisorWindow (Reg.slotCancel k).addr = false ∧
    rowAt (Reg.slotCancel k).addr = some ⟨0x080 + 0x20 * k.val + 0x10, .slotCancel k, false, true⟩ := by decide

theorem exec_slotCancel {p : Port} (hp : serves s p) (k : SlotNo) (w : Word) :
    exec (.slotCancel p 0 k w) s = .next (s.cancelSlot p k (controlPlace (Reg.slotCancel k).addr)) := by
  obtain ⟨hin, hrow⟩ := rowAt_slotCancel k
  rw [exec, execSlotCancel, State.writeAt_of_row hp (.inr hin) hrow rfl]

/-- A port's record replaced, and the answer given in the same event. -/
theorem update_answered (s : State) (p : Port) (r : PortRec) (a : Answer) :
    Function.update (portsBut s p r) p (answered (portsBut s p r p) a) = portsBut s p (answered r a) := by
  funext q
  by_cases hq : q = p
  · subst hq; simp [portsBut]
  · simp [portsBut, hq]

/-- A grant given back, and a transaction of its port answered in the same event. -/
theorem givesBack_answer {t : State} {p : Port} {g : Grant} {r : PortRec} {marks : Port → BitVec 8}
    (h : givesBack s t p g (portsBut s p r) marks) (a : Answer) :
    givesBack s (t.answer p a) p g (portsBut s p (answered r a)) marks := by
  have hcomm : ∀ r m, answered (flagsSet r m) a = flagsSet (answered r a) m := fun r m => answered_flagsSet r m a
  rw [← update_answered]
  unfold givesBack at h ⊢
  split_ifs at h ⊢
  · exact becomes_modPort p hcomm h
  · exact losesHolding_modPort p hcomm h

/-- Settles O28: `cancelSlot` by the state of the slot; but for an EMPTY one it is `vacateSlot`, answered DONE. -/
theorem cancelActsBySlotState : Obligations.CancelActsBySlotState := by
  intro p k w s hp
  rw [exec_slotCancel hp, State.cancelSlot]
  refine ⟨fun hk => ?_, fun d c hk => ?_, fun d hk => ?_, fun d g hk => ?_⟩ <;> simp only [hk]
  · rw [State.refuse_eq]
  · rw [State.setSlot_eq, State.done_eq, State.setPort_setPort, State.setPort_port_self]
  · obtain ⟨hframe, hentries, hports⟩ := State.withdraw_withdraws hk
    generalize s.withdraw p k d = t at hframe hentries hports
    refine ⟨_, rfl, ?_, hentries, fun q => ?_⟩
    · rw [State.done_eq, hframe]; rfl
    · rw [State.done_eq, State.setPort_port, hports p]
      unfold portsBut
      by_cases hq : q = p
      · rw [if_pos hq, if_pos hq, if_pos rfl]
      · rw [if_neg hq, if_neg hq, hports q, portsBut, if_neg hq]
  · exact ⟨_, rfl, givesBack_answer (s.giveBack_gives p k g) _⟩

end Sys2Proof.Machine
end

section
/-! OBLIGATIONS. The third stage of a close, slot by slot. -/

namespace Sys2Proof.Machine

variable {s t : State}

/-! ## The slots in turn (R40, R128) -/

theorem State.vacateSlot_of_empty {p : Port} {k : SlotNo} (h : s.slot p k = .empty) : s.vacateSlot p k = s := by
  unfold State.vacateSlot
  simp only [h]

/-- The slots of a port, each dealt with by the close. -/
def State.vacateSlots (s : State) (p : Port) : State := allSlots.foldl (fun s k => s.vacateSlot p k) s

theorem foldl_vacateSlot_of_empty {p : Port} {l : List SlotNo} (h : ∀ k ∈ l, s.slot p k = .empty) :
    l.foldl (fun s k => s.vacateSlot p k) s = s := by
  induction l with
  | nil => rfl
  | cons k l ih =>
    rw [List.foldl_cons, State.vacateSlot_of_empty (h k List.mem_cons_self)]
    exact ih fun j hj => h j (List.mem_cons_of_mem k hj)

/-- The first slot that is not EMPTY is dealt with first: the stage goes on from the state that this leaves. -/
theorem State.vacateSlots_first {p : Port} {k : SlotNo} (h : ∀ j, j < k → s.slot p j = .empty) :
    s.vacateSlots p = (s.vacateSlot p k).vacateSlots p := by
  obtain ⟨before, behind, hsplit⟩ := List.append_of_mem (List.mem_finRange k)
  have hbefore : ∀ j ∈ before, j < k := fun j hj => by
    have hrise := List.pairwise_lt_finRange 4
    rw [hsplit, List.pairwise_append] at hrise
    obtain ⟨-, -, hlt⟩ := hrise
    exact hlt j hj k List.mem_cons_self
  obtain ⟨-, hslot⟩ := s.vacateSlot_slot p k
  have hempty : ∀ j ∈ before, (s.vacateSlot p k).slot p j = .empty := fun j hj => by
    rw [hslot, if_neg fun hc => (hbefore j hj).ne hc.2, h j (hbefore j hj)]
  unfold State.vacateSlots allSlots
  rw [hsplit, List.foldl_append, List.foldl_append, List.foldl_cons, List.foldl_cons,
    foldl_vacateSlot_of_empty fun j hj => h j (hbefore j hj), foldl_vacateSlot_of_empty hempty,
    State.vacateSlot_of_empty (s := s.vacateSlot p k) ((hslot p k).trans (if_pos ⟨rfl, rfl⟩))]

theorem State.vacateSlots_slot (s : State) (p : Port) :
    (∀ q, ((s.vacateSlots p).port q).state = (s.port q).state) ∧
    ∀ q k, (s.vacateSlots p).slot q k = if q = p then .empty else s.slot q k := by
  obtain ⟨hstates, hslots⟩ := foldl_vacateSlot p allSlots s
  exact ⟨hstates, fun q k => (hslots q k).trans (if_congr (by simp [allSlots]) rfl rfl)⟩

theorem State.vacateSlots_events (s : State) (p : Port) : Events s (s.vacateSlots p) :=
  foldl_events (fun s k => s.vacateSlot_events p k) allSlots s

/-- The stage itself: the slots, and then the fourth stage begins. -/
theorem exec_closeThirdStage {p : Port} {c : CloseCause} (h : (s.port p).state = .closing c .third) :
    exec (.closeThirdStage p) s = .next ((s.vacateSlots p).setPort p
      { (s.vacateSlots p).port p with state := .closing c .fourth }) := by
  have hst : (s.closeStage p == some .third) = true := by simp [State.closeStage, h]
  have henter := State.enterStage_eq (st' := .fourth) (((s.vacateSlots_slot p).1 p).trans h)
  rw [exec, execCloseThirdStage, if_pos hst]
  exact congrArg Host.Outcome.next henter

/-- The slot that stands first may be dealt with before the stage. -/
theorem exec_closeThirdStage_first {p : Port} {c : CloseCause} (h : (s.port p).state = .closing c .third) {k : SlotNo}
    (hk : ∀ j, j < k → s.slot p j = .empty) :
    exec (.closeThirdStage p) s = exec (.closeThirdStage p) (s.vacateSlot p k) := by
  rw [exec_closeThirdStage h, exec_closeThirdStage (((s.vacateSlot_slot p k).1 p).trans h), ← State.vacateSlots_first hk]

/-! ## What the stage touches (R34, R40, R66, R67) -/

/-- The record of port `q` after some slots of `p` were dealt with: slots of `p` alone are emptied, and of the notices only P0's
ORPHAN and COMMAND are set. -/
def recVacated (p q : Port) (r r' : PortRec) : Prop :=
  ∃ sl m, r' = flagsSet { r with slots := sl } m ∧ (q ≠ p → sl = r.slots) ∧ (q ≠ 0 → m = 0) ∧ m &&& 0x9F = 0

theorem recVacated_trans {p q : Port} {r r' r'' : PortRec} (h : recVacated p q r r') (h' : recVacated p q r' r'') :
    recVacated p q r r'' := by
  obtain ⟨sl, m, rfl, hsl, hm, hmask⟩ := h
  obtain ⟨sl', m', rfl, hsl', hm', hmask'⟩ := h'
  refine ⟨sl', m ||| m', ?_, fun hq => (hsl' hq).trans (hsl hq), fun hq => ?_, ?_⟩
  · rw [← flagsSet_flagsSet]; rfl
  · rw [hm hq, hm' hq]; rfl
  · rw [BitVec.and_or_distrib_right, hmask, hmask']; rfl

theorem recVacated_withSlot (s : State) (p : Port) (k : SlotNo) (x : Slot) {q : Port} {m : BitVec 8} (hm : q ≠ 0 → m = 0)
    (hmask : m &&& 0x9F = 0) :
    recVacated p q (s.port q) (flagsSet (portsBut s p (withSlot (s.port p) k x) q) m) := by
  unfold portsBut
  split_ifs with hq
  · subst hq
    exact ⟨_, m, rfl, fun hq => absurd rfl hq, hm, hmask⟩
  · exact ⟨_, m, rfl, fun _ => rfl, hm, hmask⟩

/-- What the slots of a port that were dealt with leave as it was: all but entries, ports, the port's claims in the queue, the
call for an evaluation, and the engine with its result word. -/
structure SlotsVacated (p : Port) (s t : State) : Prop where
  frame : t = { s with entries := t.entries, ports := t.ports, waitQueue := t.waitQueue, evalCalled := t.evalCalled,
                       engine := t.engine, result := t.result }
  queue : t.waitQueue.filter (fun i => i.port != p) = s.waitQueue.filter fun i => i.port != p
  ports : ∀ q, recVacated p q (s.port q) (t.port q)

theorem SlotsVacated.refl (p : Port) (s : State) : SlotsVacated p s s :=
  ⟨rfl, rfl, fun q => ⟨(s.port q).slots, 0, (flagsSet_zero _).symm, fun _ => rfl, fun _ => rfl, rfl⟩⟩

theorem SlotsVacated.trans {p : Port} {u : State} (h : SlotsVacated p s t) (h' : SlotsVacated p t u) : SlotsVacated p s u :=
  ⟨by rw [h'.frame, h.frame], h'.queue.trans h.queue, fun q => recVacated_trans (h.ports q) (h'.ports q)⟩

/-- A grant given back with no notice of its own sets none but P0's ORPHAN, or P0's COMMAND. -/
theorem givesBack_marks {p : Port} {g : Grant} {before : Port → PortRec} (h : givesBack s t p g before noMarks) :
    leaseFrame s t ∧ ∀ q, ∃ m, t.port q = flagsSet (before q) m ∧ (q ≠ 0 → m = 0) ∧ m &&& 0x9F = 0 := by
  unfold givesBack losesHolding leaves at h
  split_ifs at h
  · obtain ⟨hframe, -, -, -, -, -, hports⟩ := h
    refine ⟨hframe, fun q => ⟨_, hports q, fun hq => by simp [hq, noMarks], ?_⟩⟩
    by_cases hq : q = 0 <;> simp [hq, noMarks]
  · obtain ⟨hframe, -, -, -, -, -, hports⟩ := h
    refine ⟨hframe, fun q => ⟨_, hports q, fun hq => by simp [hq, noMarks], ?_⟩⟩
    by_cases hq : awaits s g.handle.entry = true ∧ q = 0 <;> simp [hq, noMarks]
  all_goals
    obtain ⟨hframe, -, -, -, -, -, hports⟩ := h
    exact ⟨hframe, fun q => ⟨_, hports q, fun _ => rfl, by simp [noMarks]⟩⟩

/-- A claim of the port taken out of the queue leaves the other ports' claims there. -/
theorem filter_erase_port (l : List ClaimId) (p : Port) (k : SlotNo) :
    (l.erase ⟨p, k⟩).filter (fun i => i.port != p) = l.filter fun i => i.port != p := by
  induction l with
  | nil => rfl
  | cons c l ih =>
    by_cases hc : c = ⟨p, k⟩
    · subst hc; simp
    · rw [List.erase_cons_tail (by simpa using hc), List.filter_cons, List.filter_cons, ih]

theorem State.vacateSlot_vacated (s : State) (p : Port) (k : SlotNo) : SlotsVacated p s (s.vacateSlot p k) := by
  unfold State.vacateSlot
  cases h : s.slot p k with
  | empty => exact SlotsVacated.refl p s
  | waiting d =>
    obtain ⟨hframe, -, hports⟩ := State.withdraw_withdraws h
    dsimp only
    generalize s.withdraw p k d = t at hframe hports
    have hqueue : t.waitQueue = s.waitQueue.erase ⟨p, k⟩ := by rw [hframe]
    refine ⟨by rw [hframe], hqueue ▸ filter_erase_port _ p k, fun q => ?_⟩
    rw [hports, ← flagsSet_zero (portsBut ..)]
    exact recVacated_withSlot s p k .empty (fun _ => rfl) rfl
  | granted d g =>
    obtain ⟨hframe, hports⟩ := givesBack_marks (s.giveBack_gives p k g)
    dsimp only
    generalize s.giveBack p k g = t at hframe hports
    have hqueue : t.waitQueue = s.waitQueue := by rw [hframe]
    refine ⟨by rw [hframe], by rw [hqueue], fun q => ?_⟩
    obtain ⟨m, hm, hzero, hmask⟩ := hports q
    rw [hm]
    exact recVacated_withSlot s p k .empty hzero hmask
  | denied d c =>
    refine ⟨rfl, rfl, fun q => ?_⟩
    have hport : (s.setSlot p k .empty).port q = portsBut s p (withSlot (s.port p) k .empty) q := s.setPort_port p q _
    rw [hport, ← flagsSet_zero (portsBut ..)]
    exact recVacated_withSlot s p k .empty (fun _ => rfl) rfl

theorem State.vacateSlots_vacated (s : State) (p : Port) : SlotsVacated p s (s.vacateSlots p) := by
  unfold State.vacateSlots
  induction allSlots generalizing s with
  | nil => exact SlotsVacated.refl p s
  | cons k l ih => exact (s.vacateSlot_vacated p k).trans (ih _)

/-- Notices outside of a mask leave those within it. -/
theorem flagsSet_pending_masked {r : PortRec} {m mask : BitVec 8} (h : m &&& mask = 0) :
    (flagsSet r m).noticesPending &&& mask = r.noticesPending &&& mask := by
  unfold flagsSet
  dsimp only
  split_ifs
  · rfl
  · rw [BitVec.and_or_distrib_right, h]
    exact BitVec.or_zero

/-! ## The end of the stage (R34, R128) -/

/-- No claim of the port is left in the queue, which keeps the others in their order. -/
theorem State.vacateSlots_queue (hs : QueueLaw s) (p : Port) :
    (s.vacateSlots p).waitQueue = s.waitQueue.filter fun i => i.port != p := by
  obtain ⟨-, hmem⟩ := queueLaw_of_events (s.vacateSlots_events p) hs
  obtain ⟨-, hslots⟩ := s.vacateSlots_slot p
  obtain ⟨-, hothers, -⟩ := s.vacateSlots_vacated p
  generalize s.vacateSlots p = u at hmem hslots hothers
  refine (List.filter_eq_self.2 fun i hi => ?_).symm.trans hothers
  obtain ⟨q, k⟩ := i
  rw [bne_iff_ne]
  rintro rfl
  have hwaits := (hmem q k).1 hi
  rw [State.claimAt, hslots, if_pos rfl] at hwaits
  cases hwaits

/-- A port whose slots are EMPTY has no AWARDED holding (R63). -/
theorem TableLaw.not_awarded_of_empty (h : TableLaw s) {p : Port} (hp : ∀ k, s.slot p k = .empty) (e : EntryId) :
    (s.entry e).holdingState p ≠ some .awarded := by
  intro ha
  obtain ⟨k, hk, -⟩ := h.holdings e p ha
  rw [hp k] at hk
  cases hk

/-- Settles O51: the stage is `vacateSlots`, which goes on from each slot's own event, and whose frame is `SlotsVacated`. -/
theorem thirdStageEmptiesSlots : Obligations.ThirdStageEmptiesSlots := by
  intro p c s hst
  refine ⟨fun hempty => ?_, fun k hk => ⟨fun d hd => ?_, fun d g hg => ?_, fun d a hd => ?_⟩, fun hqueue hlease _ => ?_⟩
  · have hsame : s.vacateSlots p = s := foldl_vacateSlot_of_empty fun k _ => hempty k
    rw [exec_closeThirdStage hst, hsame]
  · refine ⟨s.vacateSlot p k, exec_closeThirdStage_first hst hk, ?_⟩
    rw [State.vacateSlot, hd]
    exact State.withdraw_withdraws hd
  · refine ⟨s.vacateSlot p k, exec_closeThirdStage_first hst hk, ?_⟩
    rw [State.vacateSlot, hg]
    exact s.giveBack_gives p k g
  · rw [exec_closeThirdStage_first hst hk, State.vacateSlot, hd]
    rfl
  · obtain ⟨htable, -⟩ := leaseLaw_iff.1 hlease
    obtain ⟨-, hslots⟩ := s.vacateSlots_slot p
    have hempty : ∀ k, (s.vacateSlots p).slot p k = .empty := fun k => (hslots p k).trans (if_pos rfl)
    have hawarded := (Events.tableLaw (s.vacateSlots_events p) htable).not_awarded_of_empty hempty
    obtain ⟨hframe, -, hports⟩ := s.vacateSlots_vacated p
    have hleft := State.vacateSlots_queue hqueue p
    rw [exec_closeThirdStage hst]
    generalize s.vacateSlots p = u at hempty hawarded hframe hports hleft
    obtain ⟨sl, m, hp, -, hzero, hmask⟩ := hports p
    have hothers : ∀ q, q ≠ p → ∃ m, (u.setPort p { u.port p with state := .closing c .fourth }).port q =
        flagsSet (s.port q) m ∧ (q ≠ 0 → m = 0) ∧ m &&& 0x9F = 0 := fun q hq => by
      obtain ⟨sl, m, hu, hsl, hm⟩ := hports q
      exact ⟨m, by rw [State.setPort_port_ne _ _ hq, hu, hsl hq], hm⟩
    refine ⟨_, rfl, ?_, hawarded, fun k => ?_, fun q hq h0 => ?_, fun h0 => ?_, ?_, fun q => ?_⟩
    · rw [hframe, hleft]; rfl
    · rw [State.slot, State.setPort_port_self]
      exact hempty k
    · obtain ⟨m, hm, hz, -⟩ := hothers q hq
      rw [hm, hz h0]
      exact flagsSet_zero _
    · obtain ⟨m, hm, -⟩ := hothers 0 h0.symm
      rw [hm]; rfl
    · rw [State.setPort_port_self, hp]; rfl
    · by_cases hq : q = p
      · subst hq
        rw [State.setPort_port_self, hp]
        exact flagsSet_pending_masked hmask
      · obtain ⟨m, hm, -, hmask⟩ := hothers q hq
        rw [hm]
        exact flagsSet_pending_masked hmask

end Sys2Proof.Machine
end

section
/-! OBLIGATIONS. The adoption of an orphan by the supervisor. -/

namespace Sys2Proof.Machine

variable {s : State}

/-! ## ADOPT_LEASE (R38, R52, R144, R145) -/

theorem State.lowestEmpty_eq_some {p : Port} {k : SlotNo} :
    s.lowestEmpty p = some k ↔ s.slot p k = .empty ∧ ∀ j, j < k → s.slot p j ≠ .empty := by
  simp [State.lowestEmpty, allSlots, find?_finRange_eq_some]

/-- Past its checks the command is `adopt` (R144, R145). -/
theorem State.cmdAdopt_adopts {arg : Word} {k : SlotNo}
    (hgen : (s.entry (handleOf arg).entry).generation = (handleOf arg).generation)
    (horph : (s.entry (handleOf arg).entry).state = .orphaned) (hidle : (s.entry (handleOf arg).entry).inFlight = 0)
    (hopen : (s.port (argPort arg)).state = .opened) (hk : s.lowestEmpty (argPort arg) = some k)
    (ho : s.overlapsOwn (argPort arg) (s.entry (handleOf arg).entry).range = false) :
    s.cmdAdopt arg = s.adopt (handleOf arg) (argPort arg) k := by
  have hcur : s.current (handleOf arg) = true := beq_iff_eq.2 hgen
  simp [State.cmdAdopt, hcur, horph, hidle, hopen, hk, ho]

/-- The ports after an adoption: the slot and GRANT at the port, COMMAND at P0. -/
theorem State.adopt_port (s : State) (h : Handle) (p : Port) (k : SlotNo) (q : Port) :
    (s.adopt h p k).port q = flagsSet
      { s.port q with
          slots := if q = p then (s.port q).slots.put k (.granted (adoptedClaim s h) (adoptedGrant s h p)) else (s.port q).slots }
      ((if q = p then 0x01 else 0) ||| markAt 0 0x20 q) := by
  rw [State.adopt_eq, State.complete_port, State.setPort_port, ← flagsSet_flagsSet]
  unfold portsBut
  by_cases hq : q = p
  · subst hq; simp only [if_true]; rfl
  · simp only [if_neg hq]
    rw [State.setEntry_port]
    exact congrArg (flagsSet · _) (flagsSet_zero _).symm

/-- An adoption changes entries and ports, and completes the engine's command with OK (R139, R145). -/
theorem State.adopt_frame (s : State) (h : Handle) (p : Port) (k : SlotNo) :
    s.adopt h p k = { s with entries := (s.adopt h p k).entries, ports := (s.adopt h p k).ports, engine := none,
                             result := some ⟨Cmd.adoptLease, .ok⟩ } := by
  rw [State.adopt_eq, State.complete_eq]; rfl

/-- An adoption answered DONE at P0, with the term that a request of 0 resolves to (R52). -/
theorem State.adopt_done (s : State) (h : Handle) (q : Port) (k : SlotNo) {term : BitVec 16} {clamped : Bool}
    (hterm : (s.termsOf q).resolve 0 = (term, clamped)) :
    let t := (s.adopt h q k).done 0
    leaseFrame s t ∧ othersKept s t h.entry ∧
    t.entry h.entry =
      { s.entry h.entry with
          state := .live
          holdings := [{ port := q, state := .awarded, term := term, granted := term, grace := 0, forced := false }] } ∧
    t.evalCalled = s.evalCalled ∧ t.engine = none ∧ t.result = some ⟨5, .ok⟩ ∧
    ∀ p, t.port p =
      flagsSet
        { s.port p with
            answer := if p = 0 then .done [] else (s.port p).answer
            slots := if p = q then
                (s.port p).slots.put k (.granted ⟨(s.entry h.entry).range, .exclusive, false, 0⟩
                  { handle := h, kind := .adopted, term := term, clamped := clamped, collect := s.collectTicks,
                    tickDue := false })
              else (s.port p).slots }
        ((if p = q then 0x01 else 0) ||| (if p = 0 then 0x20 else 0)) := by
  have hframe := s.adopt_frame h q k
  have hentry := s.adopt_entry h q k
  have hports := s.adopt_port h q k
  simp only [adoptedEntry, adoptedGrant, hterm] at hentry hports
  generalize s.adopt h q k = t at hframe hentry hports
  refine ⟨?_, fun f hf => (hentry f).trans (if_neg hf), (hentry _).trans (if_pos rfl), ?_, ?_, ?_, fun p => ?_⟩
  · unfold leaseFrame
    rw [State.done_eq, hframe]; rfl
  · rw [State.done_eq, hframe]; rfl
  · rw [State.done_eq, hframe]; rfl
  · rw [State.done_eq, hframe]; rfl
  · rw [State.done_eq, State.setPort_port]
    unfold portsBut
    by_cases hp : p = 0
    · subst hp
      rw [if_pos rfl, hports, if_pos rfl, answered_flagsSet]
      rfl
    · rw [if_neg hp, hports, if_neg hp]
      rfl

/-- Settles O47: past its checks the command is `adopt`, answered DONE. -/
theorem adoptGrantsTheOrphan : Obligations.AdoptGrantsTheOrphan := by
  rintro s h q k x term clamped hc rfl rfl rfl hgen horph hidle hopen hk hlow ho hterm
  have hadopt := State.cmdAdopt_adopts (s := { s with engine := some ⟨5, s.cmdArg⟩ }) hgen horph hidle hopen
    (State.lowestEmpty_eq_some.2 ⟨hk, hlow⟩) ho
  have hexec : exec (.adoptLease 0 0) s =
      .next ((State.adopt { s with engine := some ⟨5, s.cmdArg⟩ } (handleOf s.cmdArg) (argPort s.cmdArg) k).done 0) := by
    rw [exec, execAdoptLease, State.commandWrite_of_commandable hc]
    exact congrArg (fun u : State => Host.Outcome.next (u.done 0)) hadopt
  exact ⟨_, hexec, State.adopt_done { s with engine := some ⟨5, s.cmdArg⟩ } (handleOf s.cmdArg) (argPort s.cmdArg) k hterm⟩

end Sys2Proof.Machine
end

section
/-! OBLIGATIONS. The words of Tables 45 to 47 and their fields. -/

namespace Sys2Proof.Machine

/-! ## One field placed in a word (R164) -/

/-- A field is read back where it was placed. -/
@[simp] theorem extract_place_self {n : Nat} (x : BitVec n) (lo : Nat) (h : lo + n ≤ 32) :
    (place x lo).extractLsb' lo n = x := by
  refine BitVec.eq_of_getLsbD_eq fun i hi => ?_
  have h32 : lo + i < 32 := by omega
  simp [place, hi, h32]

/-- A field that was placed leaves the bits below it clear. -/
@[simp] theorem extract_place_below {n : Nat} (x : BitVec n) (lo start len : Nat) (h : start + len ≤ lo) :
    (place x lo).extractLsb' start len = 0#len := by
  refine BitVec.eq_of_getLsbD_eq fun i hi => ?_
  have hlow : start + i < lo := by omega
  simp [place, hlow]

/-- It leaves the bits above it clear. -/
@[simp] theorem extract_place_above {n : Nat} (x : BitVec n) (lo start len : Nat) (h : lo + n ≤ start) :
    (place x lo).extractLsb' start len = 0#len := by
  refine BitVec.eq_of_getLsbD_eq fun i hi => ?_
  have hhigh : n ≤ start + i - lo := by omega
  simp [place, BitVec.getLsbD_of_ge x _ hhigh]

@[simp] theorem getElem_place_self (x : BitVec 1) (i : Nat) (h : i < 32) : (place x i)[i] = x[0] := by
  simp [place, BitVec.getLsbD_eq_getElem]

@[simp] theorem getElem_place_below {n : Nat} (x : BitVec n) (lo i : Nat) (h : i < 32) (hl : i < lo) :
    (place x lo)[i] = false := by
  simp [place, hl]

@[simp] theorem getElem_place_above {n : Nat} (x : BitVec n) (lo i : Nat) (h : i < 32) (hl : lo + n ≤ i) :
    (place x lo)[i] = false := by
  have hhigh : n ≤ i - lo := by omega
  simp [place, BitVec.getLsbD_of_ge x _ hhigh]

/-- A mask that is set throughout a field keeps it. -/
theorem place_and_kept {n : Nat} (x : BitVec n) (lo : Nat) {m : Word} (hm : m.extractLsb' lo n = BitVec.allOnes n) :
    place x lo &&& m = place x lo := by
  refine BitVec.eq_of_getLsbD_eq fun i hi => ?_
  by_cases h : lo ≤ i ∧ i - lo < n
  · obtain ⟨hlo, hn⟩ := h
    have hbit := congrArg (BitVec.getLsbD · (i - lo)) hm
    have hadd : lo + (i - lo) = i := by omega
    simp only [BitVec.getLsbD_extractLsb', hn, decide_true, Bool.true_and, hadd, BitVec.getLsbD_allOnes] at hbit
    rw [BitVec.getLsbD_and, hbit, Bool.and_true]
  · have hz : (place x lo).getLsbD i = false := by
      by_cases hlo : i < lo
      · simp [place, hlo]
      · simp [place, BitVec.getLsbD_of_ge x (i - lo) (by omega)]
    rw [BitVec.getLsbD_and, hz, Bool.false_and]

/-- A mask that is clear throughout a field removes it. -/
theorem place_and_cut {n : Nat} (x : BitVec n) (lo : Nat) {m : Word} (hm : (~~~m).extractLsb' lo n = BitVec.allOnes n) :
    place x lo &&& m = 0 := by
  rw [← place_and_kept x lo hm, BitVec.and_assoc, BitVec.and_comm (~~~m)]
  simp

/-! ## The codes of the fields (Tables 38, 48 and 49) -/

@[simp] theorem entryOf_entryBits (e : EntryId) : entryOf (entryBits e) = e := Fin.ext (by simp [entryOf, entryBits])

@[simp] theorem portOf_portBits (p : Port) : portOf (portBits p) = p := Fin.ext (by simp [portOf, portBits])

@[simp] theorem ofCode_code (m : Mode) : Mode.ofCode m.code = m := by cases m <;> rfl

theorem code_bit (m : Mode) : m.code[0] = true ↔ m = .exclusive := by cases m <;> decide

theorem ofCode_field (w : Word) : Mode.ofCode (field w 31 1) = if w.getLsbD 31 = true then .exclusive else .shared := by
  unfold Mode.ofCode
  refine if_congr ⟨fun h => ?_, fun h => ?_⟩ rfl rfl
  · simpa [field] using congrArg (BitVec.getLsbD · 0) h
  · refine BitVec.eq_of_getLsbD_eq fun i hi => ?_
    obtain rfl : i = 0 := by omega
    simpa [field] using h

/-! ## The words read (R37, R38, R61, R158, R166, R167) -/

theorem Holding.word_fields (h : Holding) :
    h.wordA.getLsbD 31 = true ∧ h.wordA.getLsbD 30 = false ∧ h.wordA.extractLsb' 28 2 = h.state.code ∧
    h.wordA.getLsbD 27 = h.forced ∧ h.wordA.extractLsb' 24 3 = 0 ∧ h.wordA.extractLsb' 16 8 = h.grace ∧
    h.wordA.extractLsb' 0 16 = h.term ∧ portOf (h.supWordA.extractLsb' 24 2) = h.port ∧
    h.supWordA &&& 0xFCFFFFFF = h.wordA ∧ h.wordB = h.granted.setWidth 32 := by
  refine ⟨?_, ?_, ?_, ?_, ?_, ?_, ?_, ?_, ?_, ?_⟩
  case refine_9 =>
    simp only [Holding.supWordA, Holding.wordA, placeBit, BitVec.and_or_distrib_right]
    rw [place_and_kept _ 31 (by decide), place_and_kept _ 28 (by decide), place_and_kept _ 27 (by decide),
      place_and_kept _ 16 (by decide), place_and_kept _ 0 (by decide), place_and_cut _ 24 (by decide)]
    exact BitVec.or_zero
  case refine_10 => exact place_zero _
  all_goals simp [Holding.supWordA, Holding.wordA, placeBit, BitVec.extractLsb'_or]

theorem OrphanRecord.word_fields (o : OrphanRecord) :
    o.word.getLsbD 31 = true ∧ o.word.getLsbD 30 = false ∧ portOf (o.word.extractLsb' 28 2) = o.former ∧
    o.word.getLsbD 27 = o.timed ∧ o.word.extractLsb' 16 11 = 0 ∧ o.word.extractLsb' 0 16 = o.counter := by
  simp [OrphanRecord.word, placeBit, BitVec.extractLsb'_or]

theorem Handle.word_fields (h : Handle) :
    handleOf h.word = h ∧ h.word.extractLsb' 30 2 = 0 ∧ entryOf (h.word.extractLsb' 24 6) = h.entry ∧
    h.word.extractLsb' 16 8 = h.generation ∧ h.word.extractLsb' 0 16 = 0 := by
  simp [Handle.word, handleOf, field, BitVec.extractLsb'_or]

theorem Handle.word_masked (h : Handle) : h.word &&& 0xC000FFFF = 0 := by
  rw [Handle.word, BitVec.and_or_distrib_right, place_and_cut _ 24 (by decide), place_and_cut _ 16 (by decide)]
  rfl

theorem PageRange.word_fields (r : PageRange) :
    stagingOf r.word = r ∧ r.word.extractLsb' 30 2 = 0 ∧ r.word.extractLsb' 16 14 = r.base ∧ r.word.getLsbD 15 = false ∧
    r.word.extractLsb' 0 15 = r.count := by
  simp [PageRange.word, stagingOf, field, BitVec.extractLsb'_or]

theorem Grant.word_fields (g : Grant) :
    g.word.extractLsb' 0 2 = 2 ∧ g.word.extractLsb' 2 2 = g.kind.code ∧ g.word.getLsbD 4 = g.clamped ∧
    g.word.extractLsb' 5 3 = 0 ∧ entryOf (g.word.extractLsb' 8 6) = g.handle.entry ∧ g.word.extractLsb' 14 2 = 0 ∧
    g.word.extractLsb' 16 8 = g.handle.generation ∧ g.word.extractLsb' 24 8 = 0 := by
  simp [Grant.word, placeBit, BitVec.extractLsb'_or]

theorem EntryItems.word0_fields (i : EntryItems) (hh : i.nHoldings ≤ 4) (hf : i.inFlight ≤ 8) :
    i.word0.getLsbD 31 = true ∧ i.word0.getLsbD 30 = false ∧ i.word0.extractLsb' 28 2 = i.state.code ∧
    i.word0.extractLsb' 27 1 = i.mode.code ∧ i.word0.getLsbD 26 = i.contested ∧ i.word0.extractLsb' 23 3 = 0 ∧
    i.word0.extractLsb' 6 2 = 0 ∧ (i.word0.extractLsb' 20 3).toNat = i.nHoldings ∧
    (i.word0.extractLsb' 16 4).toNat = i.inFlight ∧ i.word0.extractLsb' 8 8 = i.generation ∧
    entryOf (i.word0.extractLsb' 0 6) = i.index := by
  have hh' : i.nHoldings % 8 = i.nHoldings := Nat.mod_eq_of_lt (by omega)
  have hf' : i.inFlight % 16 = i.inFlight := Nat.mod_eq_of_lt (by omega)
  simp [EntryItems.word0, placeBit, BitVec.extractLsb'_or, hh', hf']

/-- SLOT_DESC_B as read back, of a claim in whichever state its slot is (R38). -/
theorem descBWord_fields (d : Descriptor) :
    let w := place d.mode.code 31 ||| placeBit d.noWait 30 ||| place d.term 0
    (w.getLsbD 31 = true ↔ d.mode = .exclusive) ∧ w.getLsbD 30 = d.noWait ∧ w.extractLsb' 16 14 = 0 ∧
    w.extractLsb' 0 16 = d.term ∧ descriptorOf d.range w = d := by
  simp [placeBit, BitVec.extractLsb'_or, descriptorOf, field, code_bit]

/-- The claim's word is the same in every slot that has one. -/
theorem descBWord_eq {d : Descriptor} {x : Slot} (h : x = .waiting d ∨ (∃ g, x = .granted d g) ∨ ∃ c, x = .denied d c) :
    x.descBWord = place d.mode.code 31 ||| placeBit d.noWait 30 ||| place d.term 0 := by
  rcases h with rfl | ⟨g, rfl⟩ | ⟨c, rfl⟩ <;> rfl

theorem statusWord_waiting {ahead : Nat} (d : Descriptor) (h : ahead ≤ 15) :
    ((Slot.waiting d).statusWord ahead).extractLsb' 0 2 = 1 ∧ ((Slot.waiting d).statusWord ahead).getLsbD 2 = d.noWait ∧
    (((Slot.waiting d).statusWord ahead).extractLsb' 4 4).toNat = ahead ∧
    ((Slot.waiting d).statusWord ahead).extractLsb' 8 24 = 0 ∧ ((Slot.waiting d).statusWord ahead).getLsbD 3 = false := by
  have hahead : ahead % 16 = ahead := Nat.mod_eq_of_lt (by omega)
  simp [Slot.statusWord, placeBit, BitVec.extractLsb'_or, hahead]

theorem statusWord_granted (ahead : Nat) (d : Descriptor) (g : Grant) :
    ((Slot.granted d g).statusWord ahead).extractLsb' 0 2 = 2 ∧ ((Slot.granted d g).statusWord ahead).getLsbD 2 = d.noWait ∧
    ((Slot.granted d g).statusWord ahead).extractLsb' 3 5 = 0 ∧
    ((Slot.granted d g).statusWord ahead).extractLsb' 8 8 = g.collect ∧
    ((Slot.granted d g).statusWord ahead).extractLsb' 16 2 = g.kind.code ∧
    ((Slot.granted d g).statusWord ahead).extractLsb' 18 14 = 0 := by
  simp [Slot.statusWord, placeBit, BitVec.extractLsb'_or]

theorem statusWord_denied (ahead : Nat) (d : Descriptor) (c : DenialCause) :
    ((Slot.denied d c).statusWord ahead).extractLsb' 0 2 = 3 ∧ ((Slot.denied d c).statusWord ahead).getLsbD 2 = d.noWait ∧
    ((Slot.denied d c).statusWord ahead).extractLsb' 3 15 = 0 ∧
    ((Slot.denied d c).statusWord ahead).extractLsb' 18 2 = c.code ∧
    ((Slot.denied d c).statusWord ahead).extractLsb' 20 12 = 0 := by
  simp [Slot.statusWord, placeBit, BitVec.extractLsb'_or]

theorem faultWord_fields (f : FaultRecord) :
    (faultWord (some f)).getLsbD 31 = true ∧ (faultWord (some f)).getLsbD 30 = f.more ∧
    (faultWord (some f)).extractLsb' 11 19 = 0 ∧ (faultWord (some f)).extractLsb' 8 3 = f.place.kindCode ∧
    (faultWord (some f)).extractLsb' 4 4 = 0 ∧ (faultWord (some f)).extractLsb' 0 4 = f.code.code := by
  simp [faultWord, placeBit, BitVec.extractLsb'_or]

theorem cmdResultWord_fields (busy : Bool) (r : ResultWord) :
    (cmdResultWord busy (some r)).getLsbD 31 = busy ∧ (cmdResultWord busy (some r)).extractLsb' 12 19 = 0 ∧
    (cmdResultWord busy (some r)).extractLsb' 8 4 = r.code ∧ (cmdResultWord busy (some r)).extractLsb' 4 4 = 0 ∧
    (cmdResultWord busy (some r)).extractLsb' 0 4 = r.result.code := by
  simp [cmdResultWord, placeBit, BitVec.extractLsb'_or]

/-! ## The status byte (R122) -/

/-- The parts of a CLOSING port's status byte lie beside one another. -/
theorem closing_byte_fields : ∀ (line : Bool) (c : BitVec 2) (st : BitVec 3),
    let b : BitVec 8 := ((BitVec.ofBool line).setWidth 8 <<< 7) ||| (st.setWidth 8 <<< 4) ||| (c.setWidth 8 <<< 2) ||| 2
    b.getLsbD 7 = line ∧ b.extractLsb' 0 2 = 2 ∧ b.extractLsb' 2 2 = c ∧ b.extractLsb' 4 3 = st := by decide

theorem open_byte_fields : ∀ line : Bool, let b : BitVec 8 := (BitVec.ofBool line).setWidth 8 <<< 7
    b.getLsbD 7 = line ∧ b.extractLsb' 0 7 = 0 ∧ (b ||| 1).getLsbD 7 = line ∧ (b ||| 1).extractLsb' 0 7 = 1 := by decide

theorem PortRec.statusByte_fields (r : PortRec) : r.statusByte.getLsbD 7 = r.lineHeld ∧
    (r.state = .closed → r.statusByte.extractLsb' 0 7 = 0) ∧ (r.state = .opened → r.statusByte.extractLsb' 0 7 = 1) ∧
    ∀ c st, r.state = .closing c st →
      r.statusByte.extractLsb' 0 2 = 2 ∧ r.statusByte.extractLsb' 2 2 = c.code ∧ r.statusByte.extractLsb' 4 3 = st.code := by
  obtain ⟨hline, hclosed, hline', hopened⟩ := open_byte_fields r.lineHeld
  unfold PortRec.statusByte
  cases r.state with
  | closed => exact ⟨hline, fun _ => hclosed, fun h => (by cases h), fun c st h => (by cases h)⟩
  | opened => exact ⟨hline', fun h => (by cases h), fun _ => hopened, fun c st h => (by cases h)⟩
  | closing c st =>
    obtain ⟨hbit, hfields⟩ := closing_byte_fields r.lineHeld c.code st.code
    refine ⟨hbit, fun h => (by cases h), fun h => (by cases h), fun c' st' h => ?_⟩
    cases h
    exact hfields

/-! ## The output lines (R156, R159, R169) -/

theorem Answer.lastBeat_eq (a : Answer) : a.lastBeat =
    match a with
    | .none => { rv := false, data := .none, ans := 0, code := 0 }
    | .done ws => { rv := !ws.isEmpty, data := ws.getLast?, ans := 1, code := 0 }
    | .retry => { rv := false, data := .none, ans := 2, code := 0 }
    | .refuse c => { rv := false, data := .none, ans := 3, code := c.code } := by
  cases a <;> rfl

theorem State.answerBeats_of_answer {s : State} {p : Port} (h : (s.port p).answer ≠ .none) :
    s.answerBeats p = (s.port p).answer.words.dropLast.map earlierBeat ++ [(s.port p).answer.lastBeat] := if_neg h

/-- A read answered DONE returns its words in their order. -/
theorem beats_data (ws : List Word) :
    (ws.dropLast.map earlierBeat ++ [(Answer.done ws).lastBeat]).filterMap ReturnBeat.data = ws := by
  have hearlier : (ws.dropLast.map earlierBeat).filterMap ReturnBeat.data = ws.dropLast := by
    rw [List.filterMap_map]
    exact List.filterMap_some
  rw [List.filterMap_append, hearlier, Answer.lastBeat_eq]
  rcases List.eq_nil_or_concat ws with rfl | ⟨before, w, rfl⟩
  · rfl
  · simp

theorem State.attention_iff (s : State) (p : Port) : s.attention p = true ↔
    (s.port p).state = .opened ∧ (s.port p).noticesPending &&& (s.port p).noticesEnabled ≠ 0 := by
  simp [State.attention]

/-- The beats of an answer: none without one, else the words before the last and then the lines as they go on. -/
theorem State.answerBeats_facts (s : State) (p : Port) :
    (s.answerBeats p = [] ↔ (s.port p).answer = .none) ∧
    (∀ b ∈ (s.answerBeats p).getLast?, b = (s.portPins p).toReturnBeat) ∧
    (∀ b ∈ (s.answerBeats p).dropLast, b.rv = true ∧ b.ans = 0 ∧ b.code = 0) ∧
    (∀ ws, (s.port p).answer = .done ws → (s.answerBeats p).filterMap ReturnBeat.data = ws) ∧
    ((∀ ws, (s.port p).answer ≠ .done ws) → (s.answerBeats p).length ≤ 1) := by
  by_cases ha : (s.port p).answer = .none
  · have hbeats : s.answerBeats p = [] := if_pos ha
    simp [hbeats, ha]
  · have hlast : (s.portPins p).toReturnBeat = (s.port p).answer.lastBeat := rfl
    rw [State.answerBeats_of_answer ha, hlast]
    refine ⟨by simp [ha], by simp, fun b hb => ?_, fun ws hws => hws ▸ beats_data ws, fun hn => ?_⟩
    · rw [List.dropLast_concat] at hb
      obtain ⟨w, -, rfl⟩ := List.mem_map.1 hb
      exact ⟨rfl, rfl, rfl⟩
    · have hwords : (s.port p).answer.words = [] := by
        cases hans : (s.port p).answer with
        | done ws => exact absurd hans (hn ws)
        | none | retry | refuse c => rfl
      simp [hwords]

/-- Settles O41, word by word. -/
theorem wordsCarryTheirFields : Obligations.WordsCarryTheirFields := by
  refine ⟨⟨rfl, rfl, rfl, rfl, rfl, rfl, rfl, rfl, rfl, fun _ _ => rfl⟩, fun s p => ?_, PortRec.statusByte_fields,
    ⟨rfl, rfl, ?_⟩, fun busy => ⟨?_, ?_⟩, ?_, ?_, ⟨rfl, fun _ => rfl, ?_⟩, ?_, ?_, ?_, Grant.word_fields, fun c => rfl,
    ⟨fun _ => rfl, fun _ => rfl⟩, fun w => ⟨rfl, rfl, rfl, rfl, fun range => ?_⟩, ?_, ?_, ?_⟩
  · obtain ⟨hnone, hlast, hearlier, hdata, hone⟩ := s.answerBeats_facts p
    exact ⟨Answer.lastBeat_eq _, hnone, hlast, hearlier, hdata, hone, s.attention_iff p⟩
  · rintro f w rfl
    obtain ⟨hvalid, hmore, hgap, hkind, hlow, hcode⟩ := faultWord_fields f
    refine ⟨hvalid, hmore, hgap, hkind, hlow, hcode, fun h hq => ?_, fun a ha => ?_⟩
    · have hwhere : faultWhereWord (some f) = h.word := by simp only [faultWhereWord, hq]
      rw [hwhere]
      exact ⟨h.word_fields.1, h.word_masked⟩
    · have hwhere : faultWhereWord (some f) = place a 0 := by
        rcases ha with ha | ha | ha <;> simp only [faultWhereWord, ha]
      rw [hwhere, place_zero]
  · cases busy <;> rfl
  · rintro r w rfl
    exact cmdResultWord_fields busy r
  · rintro h w v rfl rfl
    exact h.word_fields
  · rintro o w rfl
    exact o.word_fields
  · rintro d x w hx rfl
    rw [descBWord_eq hx]
    exact descBWord_fields d
  · rintro ahead d w ha rfl
    exact statusWord_waiting d ha
  · rintro ahead d g w rfl
    exact statusWord_granted ahead d g
  · rintro ahead d c w rfl
    exact statusWord_denied ahead d c
  · rw [← ofCode_field]; rfl
  · rintro h w rfl
    exact h.word_fields
  · rintro r w rfl
    exact r.word_fields
  · rintro i w rfl hh hf
    exact i.word0_fields hh hf

end Sys2Proof.Machine
end

section
/-! OBLIGATIONS. The renewal of a holding (R52, R85, R87, R88). -/

namespace Sys2Proof.Machine

variable {s : State}

/-! ## A RENEW item by the row of Table 21 -/

/-- A RENEW by a handle that is not current is a STALE_HANDLE fault (Table 21, R88). -/
theorem State.applyRenew_stale {p : Port} {h : Handle} (term : BitVec 16)
    (hg : (s.entry h.entry).generation ≠ h.generation) :
    s.applyRenew p h term = s.offerFault p .staleHandle (.queued h) := by
  rw [State.applyRenew, if_pos hg]

/-- A RENEW of a HELD or OVERDUE holding loads its term (R52, R87). -/
theorem State.applyRenew_renewed {p : Port} {h : Handle} (term : BitVec 16)
    (hg : (s.entry h.entry).generation = h.generation)
    (hst : (s.entry h.entry).holdingState p = some .held ∨ (s.entry h.entry).holdingState p = some .overdue) :
    s.applyRenew p h term =
      s.modEntry h.entry fun x => x.modHolding p fun g => g.renew ((s.termsOf p).resolve term).1 := by
  rw [State.applyRenew, if_neg (not_not.2 hg)]
  rcases hst with hst | hst <;> rw [hst]

/-- A RENEW that finds no holding, or one AWARDED or RECALLED, is a RENEW_DENIED fault (Table 21, R88). -/
theorem State.applyRenew_denied {p : Port} {h : Handle} (term : BitVec 16)
    (hg : (s.entry h.entry).generation = h.generation) (hheld : (s.entry h.entry).holdingState p ≠ some .held)
    (hover : (s.entry h.entry).holdingState p ≠ some .overdue) :
    s.applyRenew p h term = s.offerFault p .renewDenied (.queued h) := by
  rw [State.applyRenew, if_neg (not_not.2 hg)]
  cases hst : (s.entry h.entry).holdingState p with
  | none => rfl
  | some st =>
    cases st with
    | held => exact absurd hst hheld
    | overdue => exact absurd hst hover
    | awarded | recalled => rfl

/-! ## The item leaves the queue in the same event -/

/-- Only the port's record changes when the head item ends in a fault (R85, R88). -/
theorem State.offerFault_dropHead {p : Port} {i : HoldItem} {rest : List HoldItem}
    (hq : (s.port p).holdQueue = i :: rest) (c : RefusalCode) (place : FaultPlace) :
    (s.offerFault p c place).dropHead p = s.setPort p (flagsSet
      { s.port p with holdQueue := rest, fault := some (FaultRecord.offered (s.port p).fault c place) } 0x10) := by
  rw [State.offerFault_eq, State.dropHead, State.modPort_eq, State.setPort_setPort, State.setPort_port_self]
  simp only [flagsSet, hq, List.tail_cons]

/-- A change of an entry leaves the queues, so the same item is dropped after it (R85). -/
theorem State.modEntry_dropHead {p : Port} {i : HoldItem} {rest : List HoldItem}
    (hq : (s.port p).holdQueue = i :: rest) (e : EntryId) (f : Entry → Entry) :
    (s.modEntry e f).dropHead p = (s.setEntry e (f (s.entry e))).setPort p { s.port p with holdQueue := rest } := by
  have hport : (s.modEntry e f).port p = s.port p := rfl
  rw [State.dropHead, State.modPort_eq, hport, hq, List.tail_cons, State.modEntry_eq]

/-- RENEW with a RENEW item at the head of the queue (R85). -/
theorem exec_renew {p : Port} {i : HoldItem} {rest : List HoldItem} (hq : (s.port p).holdQueue = i :: rest)
    (hk : i.kind = .renew) : exec (.renew p) s = .next ((s.applyRenew p i.handle i.term).dropHead p) := by
  simp [exec, execRenew, State.headKind, State.applyHead, hq, hk]

/-- Settles O33: `applyRenew` by the row of Table 21, and the item leaves the queue in the same event. -/
theorem renewLoadsTerm : Obligations.RenewLoadsTerm := by
  rintro p i rest s r x term hq hk rfl rfl rfl
  rw [exec_renew hq hk]
  refine ⟨fun hg => ?stale, fun hg hst => ?renewed, fun hg hheld hover => ?denied⟩
  case stale => rw [State.applyRenew_stale _ hg, State.offerFault_dropHead hq]
  case renewed =>
    rw [State.applyRenew_renewed _ hg hst, State.modEntry_dropHead hq]
    rfl
  case denied => rw [State.applyRenew_denied _ hg hheld hover, State.offerFault_dropHead hq]

end Sys2Proof.Machine
end

section
/-! OBLIGATIONS. The collecting of grants and of denials, and lapse. -/

namespace Sys2Proof.Machine

variable {s : State}

/-! ## SLOT_COLLECT (R59 to R62) -/

theorem rowAt_slotCollect : ∀ k : SlotNo, inSupervisorWindow (Reg.slotCollect k).addr = false ∧
    rowAt (Reg.slotCollect k).addr = some ⟨0x080 + 0x20 * k.val + 0x0C, .slotCollect k, true, false⟩ := by decide

theorem exec_slotCollect {p : Port} (hp : serves s p) (k : SlotNo) :
    exec (.slotCollect p 0 k) s = .next (s.collectSlot p k (controlPlace (Reg.slotCollect k).addr)) := by
  obtain ⟨hin, hrow⟩ := rowAt_slotCollect k
  exact congrArg Host.Outcome.next (State.access_of_row hp (.inr hin) hrow rfl)

/-- A slot emptied, and the transaction of its port answered in the same event. -/
theorem State.setSlot_answer (s : State) (p : Port) (k : SlotNo) (x : Slot) (a : Answer) :
    (s.setSlot p k x).answer p a = s.setPort p (answered (withSlot (s.port p) k x) a) := by
  rw [State.setSlot_eq, State.answer_eq, State.setPort_setPort, State.setPort_port_self]

/-- Only the AWARDED record of the port differs in an entry whose grant is collected (R60). -/
theorem collectedEntry_eq (x : Entry) (p : Port) (kind : GrantKind) :
    collectedEntry x p kind =
      { x with
          orphan := if kind = .adopted then none else x.orphan
          holdings := x.holdings.map fun h => if h.port = p ∧ h.state = .awarded then { h with state := .held } else h } := by
  simp only [collectedEntry, ite_and]

/-- Settles O29: `collectSlot` by the state of the slot; the grant is taken up by `collectGrant`. -/
theorem collectTakesUpGrant : Obligations.CollectTakesUpGrant := by
  intro p k s hp
  rw [exec_slotCollect hp, State.collectSlot]
  refine ⟨fun hk => ?empty, fun d hk => ?waiting, fun d g hk => ?granted⟩ <;> simp only [hk]
  case empty => rw [State.refuse_eq]
  case waiting => rw [State.answer_eq]
  case granted =>
    rw [State.collectGrant_eq, State.doneWord_eq, State.setPort_setPort, State.setPort_port_self, collectedEntry_eq]

/-- Settles O30: a DENIED slot is emptied by a collect read and by a cancel alike, each with its answer. -/
theorem denialTakenUp : Obligations.DenialTakenUp := by
  intro p k w d c s hp hk
  rw [exec_slotCollect hp, exec_slotCancel hp, State.collectSlot, State.cancelSlot]
  simp only [hk]
  exact ⟨congrArg _ (s.setSlot_answer p k .empty _), congrArg _ (s.setSlot_answer p k .empty _)⟩

/-! ## LAPSE (R64 to R68) -/

theorem exec_lapse {p : Port} {k : SlotNo} (hd : (s.slot p k).tickDue = true) (he : s.tickEnable = true) :
    exec (.lapse p k) s = .next (s.tickSlot p k) := by
  simp [exec, execLapse, hd, he]

/-- Settles O13: the tick that waits at the slot is taken there, as `tickSlot_takes` says. -/
theorem lapseGivesGrantBack : Obligations.LapseGivesGrantBack := by
  intro p k d g s hk hd he
  have htakes := s.tickSlot_takes p k
  rw [exec_lapse (by rw [hk]; exact hd) he]
  simp only [tickTakenIn, hk] at htakes
  refine ⟨fun hc => ?counted, fun hc => ⟨_, rfl, ?lapsed⟩⟩
  case counted =>
    rw [if_pos hc] at htakes
    rw [htakes]
  case lapsed => rwa [if_neg (BitVec.not_lt.2 hc)] at htakes

end Sys2Proof.Machine
end

section
/-! OBLIGATIONS. The lease tick: the settling of an earlier one, and its handing out to entries and slots. -/

namespace Sys2Proof.Machine

variable {s : State}

/-! ## A tick handed to an entry (R74, R81, R116, R147) -/

/-- On an entry that is not counted a tick has nothing to lower (R116). -/
theorem tickedEntry_of_not_counted {x : Entry} (h : x.counted = false) : tickedEntry x = x := by
  obtain ⟨state, _, _, _, _, _, _, orphan, _⟩ := x
  cases state with
  | free | draining => rfl
  | live => cases h
  | orphaned => cases orphan <;> simp_all [Entry.counted, tickedEntry, Entry.tickEnds]

theorem Entry.ending_eq_nil {x : Entry} (hn : ∀ h ∈ x.holdings, h.ends = false) (st : HoldingState) : x.ending st = [] := by
  simp only [Entry.ending, List.map_eq_nil_iff, List.filter_eq_nil_iff, Bool.and_eq_true, not_and]
  intro h hm _
  simp [hn h hm]

/-- Where a tick ends nothing, it lowers the counters of the holdings and no holding goes (R74, R81). -/
theorem afterTick_eq {x : Entry} (hl : x.state = .live) (hn : ∀ h ∈ x.holdings, h.ends = false) :
    afterTick s x = (tickedEntry x).holdings := by
  have hends : x.tickEnds = false := by simpa [Entry.tickEnds, hl] using hn
  rw [tickedEntry, hends, if_neg Bool.false_ne_true, if_pos hl, afterTick, ← List.filterMap_eq_map']
  refine List.filterMap_congr fun h hm => ?_
  have := hn h hm
  cases hst : h.state <;> simp_all [Holding.tick, Holding.ends]

/-- A tick that ends nothing at a LIVE entry lowers its counters, and no port is told (R74, R81). -/
theorem State.tickLive_counts {e : EntryId} (hd : (s.entry e).tickDue = false) (hl : (s.entry e).state = .live)
    (hends : (s.entry e).tickEnds = false) : s.tickLive e = s.setEntry e (tickedEntry (s.entry e)) := by
  have hn : ∀ h ∈ (s.entry e).holdings, h.ends = false := by simpa [Entry.tickEnds, hl] using hends
  have hentry : { s.entry e with tickDue := false, holdings := afterTick s (s.entry e) } = tickedEntry (s.entry e) := by
    rw [afterTick_eq hl hn, ← hd]
    simp [tickedEntry, hends, hl]
  have hempty : (tickedEntry (s.entry e)).holdings.isEmpty = (s.entry e).holdings.isEmpty := by
    simp [tickedEntry, hends, hl]
  unfold afterTick at hentry
  unfold State.tickLive
  simp only [hentry, Entry.ending_eq_nil hn, ite_self, State.noticeAll, List.foldl_nil, State.setEntry_entry_self, hempty]
  simp

/-- A tick that ends nothing at a timed ORPHANED entry lowers its counter (R147). -/
theorem State.tickOrphan_counts {e : EntryId} (hd : (s.entry e).tickDue = false) (ho : (s.entry e).state = .orphaned)
    (hc : (s.entry e).counted = true) (hends : (s.entry e).tickEnds = false) :
    s.tickOrphan e = s.setEntry e (tickedEntry (s.entry e)) := by
  cases hrec : (s.entry e).orphan with
  | none => simp [Entry.counted, ho, hrec] at hc
  | some o =>
    have ht : o.timed = true := by simpa [Entry.counted, ho, hrec] using hc
    have hcount : ¬o.counter ≤ 1#16 := by simpa [Entry.tickEnds, ho, hrec, ht] using hends
    simp [State.tickOrphan, State.modEntry_eq, tickedEntry, hends, ho, hrec, ht, hcount, hd]

/-- A tick handed to an entry at which none waits: counters fall, or the tick waits there (R116). -/
theorem State.handEntry_eq {e : EntryId} (hd : (s.entry e).tickDue = false) :
    s.handEntry e = s.setEntry e (tickedEntry (s.entry e)) := by
  unfold State.handEntry
  by_cases hc : (s.entry e).counted = true
  · by_cases hends : (s.entry e).tickEnds = true
    · simp [hc, hends, tickedEntry, State.modEntry_eq]
    · rw [Bool.not_eq_true] at hends
      simp only [hc, hends, Bool.not_true, Bool.false_eq_true, if_false, State.tickEntry]
      cases hst : (s.entry e).state with
      | live => exact State.tickLive_counts hd hst hends
      | orphaned => exact State.tickOrphan_counts hd hst hc hends
      | free | draining => simp [Entry.counted, hst] at hc
  · rw [Bool.not_eq_true] at hc
    rw [tickedEntry_of_not_counted hc, State.setEntry_self]
    simp [hc]

theorem foldl_handEntry (l : List EntryId) (hl : l.Nodup) (s : State) (hd : ∀ e ∈ l, (s.entry e).tickDue = false) :
    let t := l.foldl State.handEntry s
    t = { s with entries := t.entries } ∧ ∀ e, t.entry e = if e ∈ l then tickedEntry (s.entry e) else s.entry e := by
  induction l generalizing s with
  | nil => exact ⟨rfl, fun e => by simp⟩
  | cons f l ih =>
    obtain ⟨hf, hl⟩ := List.nodup_cons.1 hl
    have hstep := State.handEntry_eq (hd f List.mem_cons_self)
    have hne : ∀ e ∈ l, e ≠ f := fun e he hef => hf (hef ▸ he)
    obtain ⟨hframe, hentries⟩ := ih hl (s.setEntry f (tickedEntry (s.entry f))) fun e he => by
      rw [State.setEntry_entry_ne _ _ (hne e he)]
      exact hd e (List.mem_cons_of_mem f he)
    simp only [List.foldl_cons, hstep]
    refine ⟨hframe, fun e => ?_⟩
    rw [hentries, State.setEntry_entry]
    by_cases hef : e = f
    · subst hef; simp [hf]
    · simp [hef]

/-! ## A tick handed to a slot (R64, R116) -/

theorem State.setSlot_self (s : State) (p : Port) (k : SlotNo) : s.setSlot p k (s.slot p k) = s := by
  rw [State.setSlot_eq, withSlot, State.slot, Table.put_look]
  exact s.setPort_self p

/-- A tick handed to a slot: the collect counter falls, or the tick waits there (R64, R116). -/
theorem State.handSlot_eq (s : State) (p : Port) (k : SlotNo) :
    s.handSlot p k = s.setSlot p k (tickedSlot (s.slot p k)) := by
  unfold State.handSlot
  cases h : s.slot p k with
  | empty => exact (h ▸ s.setSlot_self p k).symm
  | waiting d => exact (h ▸ s.setSlot_self p k).symm
  | denied d c => exact (h ▸ s.setSlot_self p k).symm
  | granted d g => by_cases hc : g.collect ≤ 1#8 <;> simp [tickedSlot, State.tickSlot, h, hc]

theorem foldl_handSlot (l : List ClaimId) (hl : l.Nodup) (s : State) :
    let t := l.foldl (fun s c => s.handSlot c.port c.slot) s
    t = { s with ports := t.ports } ∧ (∀ p, t.port p = { s.port p with slots := (t.port p).slots }) ∧
    ∀ p k, t.slot p k = if ⟨p, k⟩ ∈ l then tickedSlot (s.slot p k) else s.slot p k := by
  induction l generalizing s with
  | nil => exact ⟨rfl, fun p => rfl, fun p k => by simp⟩
  | cons c l ih =>
    obtain ⟨hc, hl⟩ := List.nodup_cons.1 hl
    obtain ⟨hframe, hports, hslots⟩ := ih hl (s.setSlot c.port c.slot (tickedSlot (s.slot c.port c.slot)))
    simp only [List.foldl_cons, s.handSlot_eq]
    refine ⟨hframe, fun p => ?_, fun p k => ?_⟩
    · have hslotsBut : ∀ q, SlotsBut (s.port q) ((s.setSlot c.port c.slot (tickedSlot (s.slot c.port c.slot))).port q) :=
        forall_setPort (motive := fun q r => SlotsBut (s.port q) r) ⟨_, rfl⟩ fun q _ => ⟨(s.port q).slots, rfl⟩
      obtain ⟨sl, hsl⟩ := hslotsBut p
      rw [hports, hsl]
    · rw [hslots, State.setSlot_slot]
      by_cases hpk : ClaimId.mk p k = c
      · subst hpk; simp [hc]
      · have hne : ¬(p = c.port ∧ k = c.slot) := fun h => hpk (by rw [h.1, h.2])
        simp [hpk, hne]

/-! ## LEASE_TICK (R112, R116, R117) -/

/-- A tick handed out where none waits reaches every entry and every slot, once (R116). -/
theorem State.handTick_counts (h : ∀ e, (s.entry e).tickDue = false) :
    s.handTick = { s with entries := s.handTick.entries, ports := s.handTick.ports } ∧
    (∀ e, s.handTick.entry e = tickedEntry (s.entry e)) ∧
    (∀ p, s.handTick.port p = { s.port p with slots := (s.handTick.port p).slots }) ∧
    ∀ p k, s.handTick.slot p k = tickedSlot (s.slot p k) := by
  obtain ⟨eframe, eentries⟩ := foldl_handEntry allEntries (List.nodup_finRange 64) s fun e _ => h e
  obtain ⟨sframe, sports, sslots⟩ := foldl_handSlot allClaims (by decide) (allEntries.foldl State.handEntry s)
  unfold State.handTick
  generalize allEntries.foldl State.handEntry s = u at eframe eentries sframe sports sslots ⊢
  generalize allClaims.foldl (fun s c => s.handSlot c.port c.slot) u = t at sframe sports sslots ⊢
  have hports : ∀ p, u.port p = s.port p := fun p => by rw [eframe]; rfl
  refine ⟨by rw [sframe, eframe], fun e => ?_, fun p => by rw [sports, hports], fun p k => ?_⟩
  · have ht : t.entry e = u.entry e := by rw [sframe]; rfl
    exact (ht.trans (eentries e)).trans (if_pos (List.mem_finRange e))
  · rw [sslots, if_pos (mem_allClaims _), State.slot, hports]
    rfl

theorem exec_leaseTick (h : clockOn s) :
    exec .leaseTick s = .next (if s.tickDue then s.tickUnderflow else s.tickUnderflow.reloadPrescale) := by
  simp [exec, execLeaseTick, State.leaseTick, State.clockRuns, h.1, h.2]

/-- Settles O10: an earlier tick is settled first (`settleTick_takes`), and where none waits the tick reaches every entry and
slot (`handTick_counts`). -/
theorem leaseTickCountsDown : Obligations.LeaseTickCountsDown := by
  refine ⟨fun s hoff => ?stopped, fun s hon => ?earlier, fun s hon hs => ?counts⟩
  case stopped =>
    have hruns : s.clockRuns = false := by
      cases hn : s.nreset <;> cases ht : s.tickEnable <;> simp_all [State.clockRuns, clockOn]
    simp [exec, execLeaseTick, State.leaseTick, hruns]
  case earlier =>
    obtain ⟨htaken, hsettled⟩ := s.settleTick_takes
    have hframe := ticksTaken_frame htaken
    have hdue : s.settleTick.tickDue = s.tickDue := by rw [hframe]
    have hon' : clockOn s.settleTick := by rw [hframe]; exact hon
    have hsame : s.settleTick.tickUnderflow = s.tickUnderflow := by
      unfold State.tickUnderflow
      rw [State.settleTick_of_settled _ hsettled]
    exact ⟨_, htaken, hsettled, hon', by rw [exec_leaseTick hon, exec_leaseTick hon', hdue, hsame]⟩
  case counts =>
    obtain ⟨hframe, hentries, hports, hslots⟩ := State.handTick_counts
      (s := { s with tickCounter := s.tickDiv, tickDue := false, leaseTime := s.leaseTime + 1 }) hs.1
    rw [exec_leaseTick hon, State.tickUnderflow, State.settleTick_of_settled s hs]
    simp only
    generalize State.handTick _ = t at hframe hentries hports hslots ⊢
    cases hd : s.tickDue with
    | true => exact ⟨t, rfl, hentries, hports, hslots, by rw [hframe]; simp⟩
    | false =>
      refine ⟨t.reloadPrescale, rfl, hentries, hports, hslots, ?_⟩
      rw [State.reloadPrescale, hframe]
      simp

end Sys2Proof.Machine
end

section
/-! SUPPORT. The rooms of the ports, the form of the pool and the ranges of the counters, and the updates of the state that keep
them. -/

namespace Sys2Proof.Machine

variable {s t u : State}

/-! ## The bounds, part by part (R64, R73, R83, R100, R103, R118, R152) -/

/-- The rooms of one port's record (R83, R100, R103, R152). -/
structure RecRooms (p : Port) (r : PortRec) : Prop where
  items : r.holdQueue.length ≤ 4
  writes : r.writeBuffer.length ≤ 2
  apart : r.read.all (fun r => r.stage == .held) = true ∨ r.writeBuffer = []
  pending : r.noticesPending &&& ~~~(noticeKinds p) = 0
  enabled : r.noticesEnabled &&& ~~~(noticeKinds p) = 0

theorem roomLaw_iff : RoomLaw s ↔ ∀ p, RecRooms p (s.port p) :=
  forall_congr' fun _ =>
    ⟨fun ⟨hi, hw, ha, hp, he⟩ => ⟨hi, hw, ha, hp, he⟩, fun ⟨hi, hw, ha, hp, he⟩ => ⟨hi, hw, ha, hp, he⟩⟩

/-- The timing values that run from 1 are not 0 (R118). -/
structure TimingSet (s : State) : Prop where
  collect : s.collectTicks ≠ 0
  grace : s.graceTicks ≠ 0
  terms : ∀ p, (s.termsOf p).default ≠ 0 ∧ (s.termsOf p).cap ≠ 0

/-- A grant in the slot waits with a collect counter above zero (R64). -/
def SlotCounts (x : Slot) : Prop := (grantIn x).all (fun g => g.2.collect != 0) = true

@[simp] theorem slotCounts_granted (d : Descriptor) (g : Grant) : SlotCounts (.granted d g) ↔ g.collect ≠ 0 := by
  simp [SlotCounts, grantIn]

@[simp] theorem slotCounts_empty : SlotCounts .empty := rfl
@[simp] theorem slotCounts_waiting (d : Descriptor) : SlotCounts (.waiting d) := rfl
@[simp] theorem slotCounts_denied (d : Descriptor) (c : DenialCause) : SlotCounts (.denied d c) := rfl

/-- The ranges of the timing values, of the holdings and of the grants (R64, R73, R118). -/
structure CounterRanges (s : State) : Prop where
  timing : TimingSet s
  holdings : ∀ e, ∀ h ∈ (s.entry e).holdings, HoldingShape h
  slots : ∀ p k, SlotCounts (s.slot p k)

theorem countersLaw_iff : CountersLaw s ↔ CounterRanges s :=
  ⟨fun ⟨hc, hg, ht, hh, hs⟩ => ⟨⟨hc, hg, ht⟩, hh, hs⟩, fun ⟨⟨hc, hg, ht⟩, hh, hs⟩ => ⟨hc, hg, ht, hh, hs⟩⟩

/-- Each of the three bounds that holds in the one state holds in the other. -/
structure BoundsKept (s t : State) : Prop where
  rooms : (∀ p, RecRooms p (s.port p)) → ∀ p, RecRooms p (t.port p)
  pool : PoolForm s → PoolForm t
  counters : CounterRanges s → CounterRanges t

theorem BoundsKept.refl (s : State) : BoundsKept s s := ⟨id, id, id⟩

theorem BoundsKept.trans (h : BoundsKept s u) (h' : BoundsKept u t) : BoundsKept s t :=
  ⟨h'.rooms ∘ h.rooms, h'.pool ∘ h.pool, h'.counters ∘ h.counters⟩

/-- What happens under a condition alone. -/
theorem BoundsKept.ite {c : Prop} [Decidable c] (h : c → BoundsKept s t) : BoundsKept s (if c then t else s) := by
  split_ifs with hc
  · exact h hc
  · exact .refl s

/-- An operation applied to each of a list. -/
theorem foldl_bounds {α : Type} {op : State → α → State} (h : ∀ s a, BoundsKept s (op s a)) (l : List α) (s : State) :
    BoundsKept s (l.foldl op s) := by
  induction l generalizing s with
  | nil => exact .refl s
  | cons a l ih => exact (h s a).trans (ih (op s a))

/-! ## Updates of the state -/

/-- What the bounds read of the state beside the timing values. -/
def State.boundedTables (s : State) : Table 64 Entry × Table 4 PortRec × List Host.Cell × Cells Bool :=
  (s.entries, s.ports, s.poolData, s.poolParity)

/-- The timing values that the bounds read. -/
def State.boundedTimes (s : State) : BitVec 8 × BitVec 8 × Table 4 PortTerms := (s.collectTicks, s.graceTicks, s.terms)

/-- An update of timing values. -/
theorem boundsKept_timing (h : t.boundedTables = s.boundedTables) (ht : TimingSet s → TimingSet t) : BoundsKept s t := by
  simp only [State.boundedTables, Prod.mk.injEq] at h
  obtain ⟨he, hp, hdata, hparity⟩ := h
  have hport : ∀ p, t.port p = s.port p := fun p => by rw [State.port, hp]; rfl
  refine ⟨fun h p => hport p ▸ h p, fun h => by rwa [PoolForm, hdata, hparity],
    fun h => ⟨ht h.timing, fun e => ?_, fun p k => ?_⟩⟩
  · rw [State.entry, he]; exact h.holdings e
  · rw [State.slot, hport]; exact h.slots p k

/-- An update of fields that no bound reads. -/
theorem boundsKept_fields (h : t.boundedTables = s.boundedTables) (ht : t.boundedTimes = s.boundedTimes) : BoundsKept s t := by
  simp only [State.boundedTimes, Prod.mk.injEq] at ht
  obtain ⟨hcollect, hgrace, hterms⟩ := ht
  refine boundsKept_timing h fun hs => ⟨hcollect ▸ hs.collect, hgrace ▸ hs.grace, fun p => ?_⟩
  rw [State.termsOf, hterms]
  exact hs.terms p

theorem boundsKept_setPort (s : State) (p : Port) {r : PortRec} (hr : RecRooms p (s.port p) → RecRooms p r)
    (hs : CounterRanges s → ∀ k, SlotCounts (r.slots.look k)) : BoundsKept s (s.setPort p r) where
  rooms h := forall_setPort (motive := RecRooms) (hr (h p)) fun q _ => h q
  pool := id
  counters h := ⟨⟨h.timing.collect, h.timing.grace, h.timing.terms⟩, h.holdings,
    forall_setPort (motive := fun _ r => ∀ k, SlotCounts (r.slots.look k)) (hs h) fun q _ => h.slots q⟩

/-- A port's record replaced, with its slots as they are. -/
theorem boundsKept_setPort_slots (s : State) (p : Port) {r : PortRec} (hs : r.slots = (s.port p).slots)
    (hr : RecRooms p (s.port p) → RecRooms p r) : BoundsKept s (s.setPort p r) :=
  boundsKept_setPort s p hr fun h => hs ▸ h.slots p

/-- What the bounds read of a port's record beside its slots. -/
def PortRec.boundedFields (r : PortRec) : List HoldItem × List WriteBurst × Option PortRead × BitVec 8 × BitVec 8 :=
  (r.holdQueue, r.writeBuffer, r.read, r.noticesPending, r.noticesEnabled)

theorem RecRooms.congr {p : Port} {r r' : PortRec} (h : RecRooms p r) (hr : r'.boundedFields = r.boundedFields) :
    RecRooms p r' := by
  simp only [PortRec.boundedFields, Prod.mk.injEq] at hr
  obtain ⟨hq, hw, hread, hn, he⟩ := hr
  exact ⟨hq ▸ h.items, hw ▸ h.writes, hread ▸ hw ▸ h.apart, hn ▸ h.pending, he ▸ h.enabled⟩

/-- An update of a port's record that no bound reads. -/
theorem BoundsKept.setPort_congr (h : BoundsKept s u) (p : Port) {r : PortRec} (hs : r.slots = (u.port p).slots)
    (hr : r.boundedFields = (u.port p).boundedFields) : BoundsKept s (u.setPort p r) :=
  h.trans (boundsKept_setPort_slots u p hs fun h => h.congr hr)

theorem BoundsKept.setSlot (h : BoundsKept s u) (p : Port) (k : SlotNo) {x : Slot} (hx : CounterRanges u → SlotCounts x) :
    BoundsKept s (u.setSlot p k x) := by
  refine h.trans (boundsKept_setPort u p (fun h => h.congr rfl) fun hu j => ?_)
  rw [Table.look_put]
  split_ifs
  · exact hx hu
  · exact hu.slots p j

theorem BoundsKept.setEntry (h : BoundsKept s u) (e : EntryId) {x : Entry}
    (hx : CounterRanges u → ∀ g ∈ x.holdings, HoldingShape g) : BoundsKept s (u.setEntry e x) := by
  refine h.trans ⟨id, id, fun hu => ⟨⟨hu.timing.collect, hu.timing.grace, hu.timing.terms⟩, fun f => ?_, hu.slots⟩⟩
  rw [State.setEntry_entry]
  split_ifs
  · exact hx hu
  · exact hu.holdings f

/-- An entry replaced by one with fewer holdings. -/
theorem BoundsKept.setEntry_subset (h : BoundsKept s u) (e : EntryId) {x : Entry}
    (hx : x.holdings ⊆ (u.entry e).holdings) : BoundsKept s (u.setEntry e x) :=
  h.setEntry e fun hu g hg => hu.holdings e g (hx hg)

/-- An entry replaced by one with no holdings. -/
theorem BoundsKept.setEntry_vacant (h : BoundsKept s u) (e : EntryId) {x : Entry} (hx : x.holdings = []) :
    BoundsKept s (u.setEntry e x) := h.setEntry_subset e (hx ▸ List.nil_subset _)

/-! ## Notices, faults and answers (R152, R157, R159) -/

/-- Every port has the first five kinds of notice, and P0 has them all. -/
theorem noticeKinds_has {p : Port} {k : Notice} (hk : p = 0 ∨ k.mask &&& 0xE0 = 0) : k.mask &&& ~~~(noticeKinds p) = 0 := by
  unfold noticeKinds
  split_ifs with hp
  · cases k <;> rfl
  · cases k <;> simp_all [Notice.mask]

theorem RecRooms.flagsSet {p : Port} {r : PortRec} (h : RecRooms p r) {m : BitVec 8} (hm : m &&& ~~~(noticeKinds p) = 0) :
    RecRooms p (flagsSet r m) := by
  refine ⟨h.items, h.writes, h.apart, ?_, h.enabled⟩
  unfold Sys2Proof.flagsSet
  split_ifs
  · exact h.pending
  · have hp := h.pending
    rw [BitVec.and_or_distrib_right, hp, hm]
    rfl

theorem BoundsKept.setNotice (h : BoundsKept s u) (p : Port) (k : Notice) (hk : p = 0 ∨ k.mask &&& 0xE0 = 0) :
    BoundsKept s (u.setNotice p k) := by
  rw [State.setNotice_eq]
  exact h.trans (boundsKept_setPort_slots u p rfl fun hr => hr.flagsSet (noticeKinds_has hk))

theorem BoundsKept.noticeAll (h : BoundsKept s u) (ps : List Port) (k : Notice) (hk : k.mask &&& 0xE0 = 0) :
    BoundsKept s (u.noticeAll ps k) :=
  h.trans (foldl_bounds (fun s p => (BoundsKept.refl s).setNotice p k (.inr hk)) ps u)

theorem BoundsKept.answer (h : BoundsKept s u) (p : Port) (a : Answer) : BoundsKept s (u.answer p a) :=
  h.setPort_congr p rfl rfl

theorem BoundsKept.done (h : BoundsKept s u) (p : Port) : BoundsKept s (u.done p) := h.answer p _

theorem BoundsKept.doneWord (h : BoundsKept s u) (p : Port) (w : Word) : BoundsKept s (u.doneWord p w) := h.answer p _

theorem State.offerFault_bounds (s : State) (p : Port) (c : RefusalCode) (place : FaultPlace) :
    BoundsKept s (s.offerFault p c place) :=
  ((BoundsKept.refl s).setPort_congr p (by rfl) (by rfl)).setNotice p .fault (.inr rfl)

theorem State.refuse_bounds (s : State) (p : Port) (c : RefusalCode) (place : FaultPlace) :
    BoundsKept s (s.refuse p c place) := (s.offerFault_bounds p c place).answer p _

theorem State.answer_bounds (s : State) (p : Port) (a : Answer) : BoundsKept s (s.answer p a) := (BoundsKept.refl s).answer p a

/-- A completion sets P0's COMMAND notice (R139). -/
theorem BoundsKept.complete (h : BoundsKept s u) (code : BitVec 4) (r : CmdResult) : BoundsKept s (u.complete code r) :=
  (h.trans (boundsKept_fields (by rfl) (by rfl))).setNotice 0 .command (.inl rfl)

theorem State.complete_bounds (s : State) (code : BitVec 4) (r : CmdResult) : BoundsKept s (s.complete code r) :=
  (BoundsKept.refl s).complete code r

end Sys2Proof.Machine
end

section
/-! SUPPORT. What each operation on entries, slots and queues keeps of the bounds: the shape of every holding it makes, the
collect counter of every grant, and the kinds of its notices. -/

namespace Sys2Proof.Machine

variable {s t u : State}

/-! ## Holdings (R10, R52, R73 to R82) -/

theorem holdingShape_award (p : Port) {term : BitVec 16} (h : term ≠ 0) : HoldingShape (Holding.award p term) :=
  ⟨h, fun _ => ⟨rfl, rfl, rfl⟩, nofun, nofun, nofun⟩

theorem holdingShape_recall {h : Holding} {grace : BitVec 8} {forced : Bool} (hs : HoldingShape h) (hg : grace ≠ 0) :
    HoldingShape (h.recall grace forced) := ⟨hs.1, nofun, nofun, nofun, fun _ => ⟨rfl, hg⟩⟩

theorem holdingShape_overdue {h : Holding} (hs : HoldingShape h) : HoldingShape h.overdue :=
  ⟨hs.1, nofun, nofun, fun _ => ⟨rfl, rfl, rfl⟩, nofun⟩

theorem holdingShape_renew {h : Holding} {term : BitVec 16} (ht : term ≠ 0) : HoldingShape (h.renew term) :=
  ⟨ht, nofun, fun _ => ⟨ht, rfl, rfl⟩, nofun, nofun⟩

/-- An AWARDED holding collected is HELD with the term it was given (R60, R73). -/
theorem holdingShape_collect {h : Holding} (hs : HoldingShape h) (ha : h.state = .awarded) :
    HoldingShape { h with state := .held } := by
  obtain ⟨hgranted, hawarded, -⟩ := hs
  obtain ⟨hterm, hgrace, hforced⟩ := hawarded ha
  exact ⟨hgranted, nofun, fun _ => ⟨hterm ▸ hgranted, hgrace, hforced⟩, nofun, nofun⟩

/-- A counter above 1 does not fall to zero. -/
theorem sub_one_ne_zero_of_not_le_one {n : Nat} {x : BitVec n} (h : ¬x ≤ 1) : x - 1 ≠ 0 := by
  intro hx
  have : x = 1 := by simpa using eq_add_of_sub_eq hx
  exact h (this ▸ BitVec.le_refl _)

/-- A lease tick lowers counters above 1, and otherwise moves the holding on (R74, R76, R81, R82). -/
theorem holdingShape_tick {c : Bool} {g : BitVec 8} {h h' : Holding} (hs : HoldingShape h) (hg : g ≠ 0)
    (ht : h.tick c g = some h') : HoldingShape h' := by
  unfold Holding.tick at ht
  cases hst : h.state with
  | awarded | overdue =>
    simp only [hst, Option.some.injEq] at ht
    exact ht ▸ hs
  | held =>
    simp only [hst] at ht
    split_ifs at ht with hterm hc
    · exact Option.some.inj ht ▸ holdingShape_recall hs hg
    · exact Option.some.inj ht ▸ holdingShape_overdue hs
    · obtain ⟨hgranted, -, hheld, -⟩ := hs
      obtain ⟨-, hgrace, hforced⟩ := hheld hst
      exact Option.some.inj ht ▸ ⟨hgranted, nofun, fun _ => ⟨sub_one_ne_zero_of_not_le_one hterm, hgrace, hforced⟩,
        nofun, nofun⟩
  | recalled =>
    simp only [hst] at ht
    split_ifs at ht with hgrace
    obtain ⟨hgranted, -, -, -, hrecalled⟩ := hs
    exact Option.some.inj ht ▸ ⟨hgranted, nofun, nofun, nofun,
      fun _ => ⟨(hrecalled hst).1, sub_one_ne_zero_of_not_le_one hgrace⟩⟩

/-- A term resolved from values that are not 0 is not 0 (R52). -/
theorem resolve_ne_zero {t : PortTerms} (ht : t.default ≠ 0 ∧ t.cap ≠ 0) (requested : BitVec 16) :
    (t.resolve requested).1 ≠ 0 := by
  obtain ⟨hdefault, hcap⟩ := ht
  unfold PortTerms.resolve
  dsimp only
  split_ifs
  all_goals assumption

theorem CounterRanges.term_ne_zero (h : CounterRanges s) (p : Port) (requested : BitVec 16) :
    ((s.termsOf p).resolve requested).1 ≠ 0 := resolve_ne_zero (h.timing.terms p) requested

/-- Holdings of which some are changed, each into one of its shape. -/
theorem holdings_map_shape {x : Entry} (hx : ∀ h ∈ x.holdings, HoldingShape h) {f : Holding → Holding}
    (hf : ∀ h, HoldingShape h → HoldingShape (f h)) : ∀ h ∈ x.holdings.map f, HoldingShape h :=
  List.forall_mem_map.2 fun h hm => hf h (hx h hm)

/-! ## Entries (R12, R14, R17 to R19, R78 to R80) -/

theorem State.freeEntry_bounds (s : State) (e : EntryId) : BoundsKept s (s.freeEntry e) := by
  have hfreed : BoundsKept s { s.modEntry e Entry.freed with evalCalled := true } :=
    ((BoundsKept.refl s).setEntry_vacant e rfl).trans (boundsKept_fields rfl rfl)
  unfold State.freeEntry
  cases s.engine with
  | none => exact hfreed
  | some c =>
    dsimp only
    split_ifs
    · exact hfreed.complete _ _
    · exact hfreed

theorem State.leave_bounds (s : State) (e : EntryId) : BoundsKept s (s.leave e) := by
  unfold State.leave
  split_ifs
  · exact s.freeEntry_bounds e
  · exact (BoundsKept.refl s).setEntry_vacant e rfl

theorem State.removeHolding_bounds (s : State) (e : EntryId) (p : Port) : BoundsKept s (s.removeHolding e p) := by
  have hremoved : BoundsKept s (s.modEntry e fun x => { x with holdings := x.holdings.filter fun h => h.port != p }) :=
    (BoundsKept.refl s).setEntry_subset e (List.filter_subset_self _)
  unfold State.removeHolding
  dsimp only
  split_ifs
  · exact hremoved.trans (State.leave_bounds _ e)
  · exact hremoved

theorem State.lowerInFlight_bounds (s : State) (e : EntryId) : BoundsKept s (s.lowerInFlight e) := by
  have hlowered : BoundsKept s (s.modEntry e fun x => { x with inFlight := x.inFlight - 1 }) :=
    (BoundsKept.refl s).setEntry_subset e (List.Subset.refl _)
  unfold State.lowerInFlight
  dsimp only
  split_ifs
  · exact hlowered.trans (State.freeEntry_bounds _ e)
  · exact hlowered

theorem State.makeOrphan_bounds (s : State) (e : EntryId) (p : Port) : BoundsKept s (s.makeOrphan e p) :=
  ((BoundsKept.refl s).setEntry_vacant e rfl).setNotice 0 .orphan (.inl rfl)

theorem State.reportContested_bounds (s : State) (e : EntryId) : BoundsKept s (s.reportContested e) := by
  unfold State.reportContested
  dsimp only
  cases (s.entry e).state with
  | free => exact .refl s
  | live =>
    refine BoundsKept.noticeAll ((BoundsKept.refl s).setEntry e fun hs => ?_) _ .recall rfl
    refine holdings_map_shape (hs.holdings e) fun h hh => ?_
    split_ifs
    · exact holdingShape_recall hh hs.timing.grace
    · exact hh
  | draining | orphaned => exact (BoundsKept.refl s).setEntry_subset e (List.Subset.refl _)

theorem State.reportUncontested_bounds (s : State) (e : EntryId) : BoundsKept s (s.reportUncontested e) := by
  refine (BoundsKept.refl s).setEntry e fun hs => ?_
  dsimp only
  split_ifs
  · refine holdings_map_shape (hs.holdings e) fun h hh => ?_
    split_ifs
    · exact holdingShape_overdue hh
    · exact hh
  · exact hs.holdings e

theorem State.forceRecall_bounds (s : State) (e : EntryId) : BoundsKept s (s.forceRecall e) := by
  refine BoundsKept.noticeAll ((BoundsKept.refl s).setEntry e fun hs => ?_) _ .recall rfl
  refine holdings_map_shape (hs.holdings e) fun h hh => ?_
  split_ifs
  · exact holdingShape_recall hh hs.timing.grace
  · exact hh

theorem State.tickEntry_bounds (s : State) (e : EntryId) : BoundsKept s (s.tickEntry e) := by
  have hkept : ∀ {x : Entry}, x.holdings = (s.entry e).holdings → BoundsKept s (s.setEntry e x) := fun hx =>
    (BoundsKept.refl s).setEntry_subset e (hx ▸ List.Subset.refl _)
  have hlive : BoundsKept s (s.tickLive e) := by
    unfold State.tickLive
    have hticked : BoundsKept s (s.setEntry e { s.entry e with tickDue := false, holdings := afterTick s (s.entry e) }) := by
      refine (BoundsKept.refl s).setEntry e fun hs h hm => ?_
      obtain ⟨h', hm', ht⟩ := List.mem_filterMap.1 hm
      exact holdingShape_tick (hs.holdings e h' hm') hs.timing.grace ht
    have hmarked := (hticked.noticeAll (if (s.entry e).contested then (s.entry e).ending .held else []) .recall rfl).noticeAll
      ((s.entry e).ending .recalled) .revoke rfl
    dsimp only
    generalize (if (s.entry e).contested then (s.entry e).ending .held else []) = recalled at hmarked ⊢
    split_ifs
    · exact hmarked.trans (State.leave_bounds _ e)
    · exact hmarked
  have horphan : BoundsKept s (s.tickOrphan e) := by
    unfold State.tickOrphan
    cases (s.entry e).orphan with
    | none => exact hkept rfl
    | some o =>
      dsimp only
      split_ifs
      · exact hkept rfl
      · exact (s.leave_bounds e).setNotice 0 .orphanEnd (.inl rfl)
      · exact hkept rfl
  unfold State.tickEntry
  cases (s.entry e).state with
  | free | draining => exact hkept rfl
  | live => exact hlive
  | orphaned => exact horphan

/-! ## Grants and claims (R34, R51 to R55, R60 to R68) -/

theorem BoundsKept.award (h : BoundsKept s u) (p : Port) (k : SlotNo) (d : Descriptor) (g : Handle) (kind : GrantKind) :
    BoundsKept s (u.award p k d g kind) :=
  ((h.trans (boundsKept_fields (by rfl) (by rfl))).setSlot p k fun hu =>
    (slotCounts_granted _ _).2 hu.timing.collect).setNotice p .grant (.inr rfl)

theorem mem_insertHolding {g h : Holding} {hs : List Holding} (hg : g ∈ insertHolding h hs) : g = h ∨ g ∈ hs := by
  induction hs with
  | nil => exact List.mem_cons.1 hg
  | cons x rest ih =>
    unfold insertHolding at hg
    split_ifs at hg
    · exact List.mem_cons.1 hg
    · rcases List.mem_cons.1 hg with rfl | hg
      · exact .inr List.mem_cons_self
      · exact (ih hg).imp_right (List.mem_cons_of_mem x)

theorem State.grantClaim_bounds (s : State) (p : Port) (k : SlotNo) (d : Descriptor) : BoundsKept s (s.grantClaim p k d) := by
  unfold State.grantClaim
  dsimp only
  cases s.joinTarget p d with
  | some e =>
    refine BoundsKept.award ((BoundsKept.refl s).setEntry e fun hs h hm => ?_) p k d _ _
    rcases mem_insertHolding hm with rfl | hm
    · exact holdingShape_award p (hs.term_ne_zero p _)
    · exact hs.holdings e h hm
  | none =>
    cases s.lowestFree with
    | none => exact .refl s
    | some e =>
      refine BoundsKept.award ((BoundsKept.refl s).setEntry e fun hs h hm => ?_) p k d _ _
      obtain rfl := List.mem_singleton.1 hm
      exact holdingShape_award p (hs.term_ne_zero p _)

theorem State.walkStep_bounds (s : State) (c : ClaimId) : BoundsKept s (s.walkStep c) := by
  unfold State.walkStep
  cases s.claimAt c with
  | none => exact .refl s
  | some d => exact .ite fun _ => s.grantClaim_bounds _ _ d

theorem State.walk_bounds (s : State) : BoundsKept s s.walk := foldl_bounds State.walkStep_bounds s.waitQueue s

theorem State.contest_bounds (s : State) (d : Descriptor) : BoundsKept s (s.contest d) :=
  foldl_bounds (fun s e => .ite fun _ => s.reportContested_bounds e) allEntries s

theorem State.uncontest_bounds (s : State) (d : Descriptor) : BoundsKept s (s.uncontest d) :=
  foldl_bounds (fun s e => .ite fun _ => s.reportUncontested_bounds e) allEntries s

/-- A slot that comes to hold no grant. -/
theorem BoundsKept.emptySlot (h : BoundsKept s u) (p : Port) (k : SlotNo) : BoundsKept s (u.setSlot p k .empty) :=
  h.setSlot p k fun _ => slotCounts_empty

theorem State.withdraw_bounds (s : State) (p : Port) (k : SlotNo) (d : Descriptor) : BoundsKept s (s.withdraw p k d) := by
  have hqueue : BoundsKept s { s with waitQueue := s.waitQueue.erase ⟨p, k⟩ } := boundsKept_fields rfl rfl
  have hempty := (hqueue.emptySlot p k).trans (State.uncontest_bounds _ d)
  unfold State.withdraw
  dsimp only
  generalize State.uncontest _ d = u at hempty ⊢
  exact hempty.trans (boundsKept_fields rfl rfl)

theorem State.arrive_bounds (s : State) (p : Port) (k : SlotNo) (d : Descriptor) : BoundsKept s (s.arrive p k d) := by
  have hwalk := s.walk_bounds
  unfold State.arrive
  dsimp only
  generalize s.walk = u at hwalk ⊢
  generalize (if u.entryConflict d || claimConflict (u.claims u.waitQueue) d then DenialCause.conflict
    else DenialCause.tableFull) = cause
  split_ifs
  · exact hwalk.trans (u.grantClaim_bounds p k d)
  · exact (hwalk.setSlot p k fun _ => slotCounts_denied _ _).setNotice p .grant (.inr rfl)
  · refine (BoundsKept.setSlot ?_ p k fun _ => slotCounts_waiting d).trans (State.contest_bounds _ d)
    exact hwalk.trans (boundsKept_fields rfl rfl)

theorem State.sendClaim_bounds (s : State) (p : Port) (k : SlotNo) (w : Word) (place : FaultPlace) :
    BoundsKept s (s.sendClaim p k w place) := by
  unfold State.sendClaim
  dsimp only
  split_ifs
  · exact s.refuse_bounds p _ _
  · exact s.refuse_bounds p _ _
  · exact s.refuse_bounds p _ _
  · exact (s.arrive_bounds p k _).done p

theorem State.giveBack_bounds (s : State) (p : Port) (k : SlotNo) (g : Grant) : BoundsKept s (s.giveBack p k g) := by
  have hempty := (BoundsKept.refl s).emptySlot p k
  unfold State.giveBack
  cases g.kind with
  | new | joined => exact hempty.trans (State.removeHolding_bounds _ _ p)
  | adopted => exact hempty.trans (State.makeOrphan_bounds _ _ p)

theorem State.vacateSlot_bounds (s : State) (p : Port) (k : SlotNo) : BoundsKept s (s.vacateSlot p k) := by
  unfold State.vacateSlot
  cases s.slot p k with
  | empty => exact .refl s
  | waiting d => exact s.withdraw_bounds p k d
  | granted d g => exact s.giveBack_bounds p k g
  | denied d c => exact (BoundsKept.refl s).emptySlot p k

theorem State.cancelSlot_bounds (s : State) (p : Port) (k : SlotNo) (place : FaultPlace) :
    BoundsKept s (s.cancelSlot p k place) := by
  by_cases hk : s.slot p k = .empty
  · unfold State.cancelSlot
    simp only [hk]
    exact s.refuse_bounds p _ _
  · rw [State.cancelSlot_eq hk]
    exact (s.vacateSlot_bounds p k).done p

theorem State.collectGrant_bounds (s : State) (p : Port) (k : SlotNo) (g : Grant) : BoundsKept s (s.collectGrant p k g) := by
  refine BoundsKept.emptySlot ((BoundsKept.refl s).setEntry _ fun hs => ?_) p k
  have hcollected : ∀ h ∈ (collectedEntry (s.entry g.handle.entry) p g.kind).holdings, HoldingShape h := by
    rw [collectedEntry_eq]
    refine holdings_map_shape (hs.holdings _) fun h hh => ?_
    split_ifs with ha
    · exact holdingShape_collect hh ha.2
    · exact hh
  dsimp only
  split_ifs <;> exact hcollected

theorem State.collectSlot_bounds (s : State) (p : Port) (k : SlotNo) (place : FaultPlace) :
    BoundsKept s (s.collectSlot p k place) := by
  unfold State.collectSlot
  cases s.slot p k with
  | empty => exact s.refuse_bounds p _ _
  | waiting d => exact s.answer_bounds p _
  | granted d g => exact (s.collectGrant_bounds p k g).doneWord p _
  | denied d c => exact ((BoundsKept.refl s).emptySlot p k).doneWord p _

theorem State.tickSlot_bounds (s : State) (p : Port) (k : SlotNo) : BoundsKept s (s.tickSlot p k) := by
  unfold State.tickSlot
  cases s.slot p k with
  | empty | waiting | denied => exact .refl s
  | granted d g =>
    dsimp only
    split_ifs with hc
    · exact (s.giveBack_bounds p k g).setNotice p .lapse (.inr rfl)
    · exact (BoundsKept.refl s).setSlot p k fun _ => (slotCounts_granted _ _).2 (sub_one_ne_zero_of_not_le_one hc)

/-! ## The holding queue (R84 to R88) -/

theorem State.postItem_bounds (s : State) (p : Port) (w : Word) : BoundsKept s (s.postItem p w) := by
  unfold State.postItem
  split_ifs with hroom
  · have hposted : BoundsKept s (s.modPort p fun r => { r with holdQueue := r.holdQueue ++ [holdItemOf w] }) := by
      refine boundsKept_setPort_slots s p rfl fun hr => ⟨?_, hr.writes, hr.apart, hr.pending, hr.enabled⟩
      rw [List.length_append, List.length_singleton]
      exact hroom
    exact hposted.done p
  · exact s.answer_bounds p _

theorem State.applyRelease_bounds (s : State) (p : Port) (h : Handle) : BoundsKept s (s.applyRelease p h) := by
  unfold State.applyRelease
  split_ifs
  · exact s.offerFault_bounds p _ _
  · cases (s.entry h.entry).holdingState p with
    | none => exact .refl s
    | some st =>
      cases st with
      | awarded => exact .refl s
      | held | overdue | recalled => exact s.removeHolding_bounds _ p

theorem State.applyRenew_bounds (s : State) (p : Port) (h : Handle) (term : BitVec 16) :
    BoundsKept s (s.applyRenew p h term) := by
  have hfresh : BoundsKept s
      (s.modEntry h.entry fun x => x.modHolding p fun g => g.renew ((s.termsOf p).resolve term).1) := by
    refine (BoundsKept.refl s).setEntry h.entry fun hs => holdings_map_shape (hs.holdings h.entry) fun g hg => ?_
    split_ifs
    · exact holdingShape_renew (hs.term_ne_zero p term)
    · exact hg
  unfold State.applyRenew
  dsimp only
  split_ifs
  · exact s.offerFault_bounds p _ _
  · cases (s.entry h.entry).holdingState p with
    | none => exact s.offerFault_bounds p _ _
    | some st =>
      cases st with
      | awarded | recalled => exact s.offerFault_bounds p _ _
      | held | overdue => exact hfresh

theorem BoundsKept.dropHead (h : BoundsKept s u) (p : Port) : BoundsKept s (u.dropHead p) :=
  h.trans (boundsKept_setPort_slots u p rfl fun hr =>
    ⟨(List.length_tail ▸ Nat.sub_le _ 1).trans hr.items, hr.writes, hr.apart, hr.pending, hr.enabled⟩)

theorem State.applyHead_bounds (s : State) (p : Port) : BoundsKept s (s.applyHead p) := by
  unfold State.applyHead
  cases (s.port p).holdQueue with
  | nil => exact .refl s
  | cons i rest =>
    dsimp only
    cases i.kind with
    | release => exact (s.applyRelease_bounds p _).dropHead p
    | renew => exact (s.applyRenew_bounds p _ _).dropHead p

theorem State.applyQueue_bounds (s : State) (p : Port) : BoundsKept s (s.applyQueue p) :=
  foldl_bounds (fun s _ => s.applyHead_bounds p) _ s

/-! ## The lease clock (R112 to R117) -/

theorem State.settleTick_bounds (s : State) : BoundsKept s s.settleTick :=
  (foldl_bounds (fun s e => .ite fun _ => s.tickEntry_bounds e) allEntries s).trans
    (foldl_bounds (fun s c => .ite fun _ => s.tickSlot_bounds c.port c.slot) allClaims _)

theorem State.handEntry_bounds (s : State) (e : EntryId) : BoundsKept s (s.handEntry e) := by
  unfold State.handEntry
  split_ifs
  · exact .refl s
  · exact (BoundsKept.refl s).setEntry_subset e (List.Subset.refl _)
  · exact s.tickEntry_bounds e

theorem State.handSlot_bounds (s : State) (p : Port) (k : SlotNo) : BoundsKept s (s.handSlot p k) := by
  rw [State.handSlot_eq]
  refine (BoundsKept.refl s).setSlot p k fun hs => ?_
  have hk := hs.slots p k
  cases hslot : s.slot p k with
  | empty | waiting | denied => rfl
  | granted d g =>
    rw [hslot, slotCounts_granted] at hk
    unfold tickedSlot
    dsimp only
    split_ifs with hc
    · exact (slotCounts_granted _ _).2 hk
    · exact (slotCounts_granted _ _).2 (sub_one_ne_zero_of_not_le_one hc)

theorem State.handTick_bounds (s : State) : BoundsKept s s.handTick :=
  (foldl_bounds State.handEntry_bounds allEntries s).trans
    (foldl_bounds (op := fun s (c : ClaimId) => s.handSlot c.port c.slot) (fun s c => s.handSlot_bounds c.port c.slot)
      allClaims _)

theorem State.tickUnderflow_bounds (s : State) : BoundsKept s s.tickUnderflow := by
  have hsettled := s.settleTick_bounds
  unfold State.tickUnderflow
  dsimp only
  generalize s.settleTick = u at hsettled ⊢
  refine BoundsKept.trans ?_ (State.handTick_bounds _)
  exact hsettled.trans (boundsKept_fields rfl rfl)

theorem State.reloadPrescale_bounds (s : State) : BoundsKept s s.reloadPrescale := boundsKept_fields rfl rfl

theorem State.prescaleUnderflow_bounds (s : State) : BoundsKept s s.prescaleUnderflow := by
  have hpulse : BoundsKept s s.pulse := by
    have hdue : BoundsKept s (if s.tickDue then s.tickUnderflow else s) := .ite fun _ => s.tickUnderflow_bounds
    unfold State.pulse
    dsimp only
    generalize (if s.tickDue then s.tickUnderflow else s) = u at hdue ⊢
    split_ifs <;> exact hdue.trans (boundsKept_fields rfl rfl)
  exact .ite fun _ => hpulse.trans (State.reloadPrescale_bounds _)

theorem State.leaseTick_bounds (s : State) : BoundsKept s s.leaseTick := by
  unfold State.leaseTick
  split_ifs
  · exact .refl s
  · exact s.tickUnderflow_bounds
  · exact s.tickUnderflow_bounds.trans (State.reloadPrescale_bounds _)

theorem State.clockCycle_bounds (s : State) : BoundsKept s s.clockCycle := by
  have hdue : BoundsKept s (if s.tickDue then s.leaseTick else s) := .ite fun _ => s.leaseTick_bounds
  unfold State.clockCycle
  dsimp only
  generalize (if s.tickDue then s.leaseTick else s) = u at hdue ⊢
  split_ifs
  · exact .refl s
  · exact boundsKept_fields rfl rfl
  · exact (hdue.trans u.leaseTick_bounds).trans (State.settleTick_bounds _)
  · exact hdue.trans u.prescaleUnderflow_bounds

end Sys2Proof.Machine
end

section
/-! OBLIGATIONS. What every command, and so every step, keeps of the bounds. -/

namespace Sys2Proof.Machine

variable {s t u : State}

/-! ## The pool (R94 to R110) -/

theorem State.transact_bounds {p : Port} {f : State → State} (h : s.takes p = true → BoundsKept s (f s)) :
    BoundsKept s (s.transact p f) := .ite h

theorem State.takes_read {p : Port} (h : s.takes p = true) : (s.port p).read = none := by
  simp only [State.takes, Bool.and_eq_true, Option.isNone_iff_eq_none] at h
  exact h.2

theorem State.raiseInFlight_bounds (s : State) (e : EntryId) : BoundsKept s (s.raiseInFlight e) :=
  (BoundsKept.refl s).setEntry_subset e (List.Subset.refl _)

/-- A write is accepted at a port with room for it, while no read of the port is under way (R95, R100). -/
theorem State.takeWrite_bounds {p : Port} (hr : (s.port p).read = none) (a : BitVec 22) (be : BitVec 4) (ws : List Word) :
    BoundsKept s (s.takeWrite p a be ws) := by
  unfold State.takeWrite
  split_ifs with _ hroom
  · exact s.answer_bounds p _
  · exact s.answer_bounds p _
  · cases s.judgeBurst p a ws.length true with
    | error c => exact s.refuse_bounds p _ _
    | ok e =>
      refine BoundsKept.done ((s.raiseInFlight_bounds e).trans ?_) p
      refine boundsKept_setPort_slots _ p rfl fun h => ⟨h.items, ?_, .inl ?_, h.pending, h.enabled⟩
      · rw [List.length_append]
        exact Nat.lt_of_not_le hroom
      · exact (congrArg (Option.all _) hr).trans rfl

theorem BoundsKept.endRead (h : BoundsKept s u) (p : Port) (a : Answer) : BoundsKept s (u.endRead p a) :=
  h.trans (boundsKept_setPort_slots u p rfl fun hr => ⟨hr.items, hr.writes, .inl rfl, hr.pending, hr.enabled⟩)

/-- A read is judged at a port with no buffered write (R103). -/
theorem State.judgeRead_bounds {p : Port} (hw : (s.port p).writeBuffer = []) (a : BitVec 22) (be len : BitVec 4) :
    BoundsKept s (s.judgeRead p a be len) := by
  unfold State.judgeRead
  cases s.judgeBurst p a (len.toNat + 1) false with
  | error c => exact (s.offerFault_bounds p _ _).endRead p _
  | ok e =>
    exact (s.raiseInFlight_bounds e).trans
      (boundsKept_setPort_slots _ p rfl fun h => ⟨h.items, h.writes, .inr hw, h.pending, h.enabled⟩)

theorem State.takeRead_bounds (s : State) (p : Port) (a : BitVec 22) (be len : BitVec 4) :
    BoundsKept s (s.takeRead p a be len) := by
  have hanswer := s.answer_bounds p .none
  unfold State.takeRead
  split_ifs with _ hw
  · exact s.answer_bounds p _
  · refine hanswer.trans (State.judgeRead_bounds ?_ a be len)
    rw [State.answer_eq, State.setPort_port_self]
    exact List.isEmpty_iff.1 hw
  · exact hanswer.trans
      (boundsKept_setPort_slots _ p rfl fun h => ⟨h.items, h.writes, .inl rfl, h.pending, h.enabled⟩)

theorem State.startBurst_bounds (s : State) : BoundsKept s s.startBurst := by
  unfold State.startBurst
  split_ifs
  · exact .refl s
  · cases s.rotation.findSome? s.offered with
    | none => exact .refl s
    | some b => exact boundsKept_fields rfl rfl

theorem State.endWord_bounds (s : State) (b : ActiveBurst) (m : MemAnswer) : BoundsKept s (s.endWord b m).1 := by
  unfold State.endWord
  cases b.kind with
  | read len => exact .refl s
  | write ws =>
    dsimp only
    cases ws[b.done]? with
    | none => exact .refl s
    | some w =>
      obtain ⟨-, hframe, hpool⟩ := s.writeWord_stores (byteAddr b.wordAddr) b.enables w
      dsimp only
      rw [hframe] at hpool ⊢
      exact ⟨id, hpool, fun h => ⟨⟨h.timing.collect, h.timing.grace, h.timing.terms⟩, h.holdings, h.slots⟩⟩

theorem State.endBurst_bounds (s : State) (b : ActiveBurst) : BoundsKept s (s.endBurst b) := by
  have hlowered : BoundsKept s (({ s with memPort := none } : State).lowerInFlight b.entry) :=
    BoundsKept.trans (boundsKept_fields (by rfl) (by rfl)) (State.lowerInFlight_bounds _ b.entry)
  unfold State.endBurst
  dsimp only
  generalize State.lowerInFlight _ b.entry = u at hlowered ⊢
  cases b.kind with
  | write ws =>
    refine hlowered.trans (boundsKept_setPort_slots u b.port rfl fun h =>
      ⟨h.items, ?_, h.apart.imp_right ?_, h.pending, h.enabled⟩)
    · exact (List.length_tail ▸ Nat.sub_le _ 1).trans h.writes
    · exact fun hw => congrArg List.tail hw
  | read len =>
    dsimp only
    split_ifs
    · exact (hlowered.trans (u.offerFault_bounds _ _ _)).endRead _ _
    · exact hlowered.endRead _ _

theorem State.wordReady_bounds (s : State) (m : MemAnswer) : BoundsKept s (s.wordReady m) := by
  unfold State.wordReady
  cases s.memPort with
  | none => exact .refl s
  | some b =>
    have hword := s.endWord_bounds b m
    dsimp only
    generalize s.endWord b m = w at hword ⊢
    split_ifs
    · exact hword.trans (boundsKept_fields rfl rfl)
    · exact hword.trans (State.endBurst_bounds _ _)

/-- Part reset leaves every port cleared, every counter at its reset value, and the pool in its form (R110, R135). -/
theorem State.partReset_bounds (s : State) : BoundsKept s s.partReset where
  rooms _ p := by
    rw [State.partReset_port]
    exact ⟨by simp [PortRec.afterReset, PortRec.cleared], by simp [PortRec.afterReset, PortRec.cleared], .inl rfl,
      BitVec.zero_and, BitVec.zero_and⟩
  pool := s.cutShort_frame.2
  counters _ := by
    obtain ⟨⟨hcollect, hgrace, hterms⟩, hholdings, -⟩ := countersLaw_iff.1 reset_countersLaw
    refine ⟨⟨hcollect, hgrace, hterms⟩, hholdings, fun p k => ?_⟩
    rw [State.slot, State.partReset_port, (afterReset_cleared _ _ _).1]
    simp [Table.look, Vector.get_eq_getElem]

/-! ## Ports (R123 to R132) -/

theorem BoundsKept.reopen (h : BoundsKept s u) : BoundsKept s u.reopen :=
  h.trans (.ite fun _ => (BoundsKept.refl u).setPort_congr 0 rfl rfl)

theorem BoundsKept.startClose (h : BoundsKept s u) (p : Port) (c : CloseCause) : BoundsKept s (u.startClose p c) :=
  h.setPort_congr p rfl rfl

theorem BoundsKept.enterStage (h : BoundsKept s u) (p : Port) (st : CloseStage) : BoundsKept s (u.enterStage p st) :=
  h.setPort_congr p rfl rfl

theorem State.vacateEntry_bounds (s : State) (p : Port) (e : EntryId) : BoundsKept s (s.vacateEntry p e) := by
  unfold State.vacateEntry
  cases (s.entry e).holdingState p with
  | none => exact .refl s
  | some st =>
    dsimp only
    split_ifs
    · exact s.makeOrphan_bounds e p
    · exact s.removeHolding_bounds e p

theorem State.shutPort_bounds (s : State) (p : Port) : BoundsKept s (s.shutPort p) := by
  have hshut : BoundsKept s (s.modPort p PortRec.shut) :=
    boundsKept_setPort_slots s p rfl fun h => ⟨h.items, h.writes, h.apart, BitVec.zero_and, BitVec.zero_and⟩
  have hdown : BoundsKept s (s.shutDown p) := by
    unfold State.shutDown
    split_ifs
    · exact hshut.complete _ _
    · exact hshut
  rw [State.shutPort_eq]
  split_ifs
  · exact (hdown.trans (boundsKept_fields (by rfl) (by rfl))).reopen
  · exact hdown

/-! ## The command engine (R124, R125, R138 to R149) -/

theorem State.cmdOpenPort_bounds (s : State) (arg : Word) : BoundsKept s (s.cmdOpenPort arg) := by
  unfold State.cmdOpenPort
  split_ifs
  · exact s.complete_bounds _ _
  · exact s.complete_bounds _ _
  · exact ((BoundsKept.refl s).setPort_congr _ (by rfl) (by rfl)).complete _ _

theorem State.cmdClosePort_bounds (s : State) (arg : Word) : BoundsKept s (s.cmdClosePort arg) := by
  unfold State.cmdClosePort
  split_ifs
  · exact s.complete_bounds _ _
  · exact s.complete_bounds _ _
  · exact (BoundsKept.refl s).startClose _ _

theorem State.cmdRecall_bounds (s : State) (arg : Word) : BoundsKept s (s.cmdRecall arg) := by
  unfold State.cmdRecall
  dsimp only
  split_ifs
  · exact s.complete_bounds _ _
  · exact s.complete_bounds _ _
  · exact (s.forceRecall_bounds _).complete _ _

theorem State.emptyGrants_bounds (s : State) (e : EntryId) : BoundsKept s (s.emptyGrants e) := by
  rw [State.emptyGrants_eq]
  exact foldl_bounds (op := fun s c => s.emptySlotOf e c)
    (fun s c => .ite fun _ => ((BoundsKept.refl s).emptySlot _ _).setNotice _ .lapse (.inr rfl)) allClaims s

theorem State.cmdRevoke_bounds (s : State) (arg : Word) : BoundsKept s (s.cmdRevoke arg) := by
  unfold State.cmdRevoke
  dsimp only
  split_ifs
  · exact s.complete_bounds _ _
  · exact s.complete_bounds _ _
  · refine BoundsKept.trans (BoundsKept.setEntry_vacant ?_ _ rfl) (State.leave_bounds _ _)
    exact ((BoundsKept.refl s).noticeAll _ .revoke rfl).trans (State.emptyGrants_bounds _ _)

theorem State.adopt_bounds (s : State) (h : Handle) (p : Port) (k : SlotNo) : BoundsKept s (s.adopt h p k) := by
  refine BoundsKept.complete (BoundsKept.setNotice (BoundsKept.setSlot ?_ p k fun hu => ?_) p .grant (.inr rfl)) _ _
  · refine (BoundsKept.refl s).setEntry h.entry fun hs g hg => ?_
    obtain rfl := List.mem_singleton.1 hg
    exact holdingShape_award p (hs.term_ne_zero p 0)
  · exact (slotCounts_granted _ _).2 hu.timing.collect

theorem State.cmdAdopt_bounds (s : State) (arg : Word) : BoundsKept s (s.cmdAdopt arg) := by
  unfold State.cmdAdopt
  dsimp only
  cases s.lowestEmpty (argPort arg) with
  | none => split_ifs <;> exact s.complete_bounds _ _
  | some k =>
    split_ifs
    · exact s.complete_bounds _ _
    · exact s.complete_bounds _ _
    · exact s.complete_bounds _ _
    · exact s.complete_bounds _ _
    · exact s.adopt_bounds _ _ k

theorem State.cmdRetire_bounds (s : State) (arg : Word) : BoundsKept s (s.cmdRetire arg) := by
  unfold State.cmdRetire
  dsimp only
  split_ifs
  · exact s.complete_bounds _ _
  · exact s.complete_bounds _ _
  · exact s.leave_bounds _

theorem State.cmdSetPool_bounds (s : State) (arg : Word) : BoundsKept s (s.cmdSetPool arg) := by
  unfold State.cmdSetPool
  split_ifs
  · exact s.complete_bounds _ _
  · exact s.complete_bounds _ _
  · exact BoundsKept.complete (boundsKept_fields (by rfl) (by rfl)) _ _

theorem State.runCommand_bounds (code : BitVec 4) (s : State) (arg : Word) : BoundsKept s (s.runCommand code arg) := by
  unfold State.runCommand
  split_ifs
  · exact s.cmdOpenPort_bounds arg
  · exact s.cmdClosePort_bounds arg
  · exact s.cmdRecall_bounds arg
  · exact s.cmdRevoke_bounds arg
  · exact s.cmdAdopt_bounds arg
  · exact s.cmdRetire_bounds arg
  · exact s.cmdSetPool_bounds arg
  · exact s.partReset_bounds
  · exact s.complete_bounds _ _

theorem State.startCommand_bounds (s : State) (p : Port) (code : BitVec 4) (place : FaultPlace)
    {act : State → Word → State} (h : ∀ s arg, BoundsKept s (act s arg)) : BoundsKept s (s.startCommand p code place act) := by
  unfold State.startCommand
  cases s.engine with
  | some c => exact s.refuse_bounds p _ _
  | none =>
    refine BoundsKept.done (BoundsKept.trans ?_ (h _ _)) p
    exact boundsKept_fields rfl rfl

/-! ## The windows (R118, R152 to R154, R161) -/

/-- A write of NOTICE_PENDING clears flags alone (R154). -/
theorem State.acknowledge_bounds (s : State) (p : Port) (w : Word) : BoundsKept s (s.acknowledge p w) := by
  refine BoundsKept.done ?_ p
  refine boundsKept_setPort_slots s p rfl fun h => ⟨h.items, h.writes, h.apart, ?_, h.enabled⟩
  rw [BitVec.and_assoc, BitVec.and_comm _ (~~~_), ← BitVec.and_assoc, h.pending]
  exact BitVec.zero_and

/-- A write of NOTICE_ENABLE enables kinds the port has (R153). -/
theorem State.setEnables_bounds (s : State) (p : Port) (w : Word) : BoundsKept s (s.setEnables p w) := by
  refine BoundsKept.done ?_ p
  refine boundsKept_setPort_slots s p rfl fun h => ⟨h.items, h.writes, h.apart, h.pending, ?_⟩
  rw [BitVec.and_assoc, BitVec.and_not_self]
  exact BitVec.and_zero

theorem State.clearFault_bounds (s : State) (p : Port) : BoundsKept s (s.clearFault p) :=
  ((BoundsKept.refl s).setPort_congr p (by rfl) (by rfl)).done p

theorem State.takeView_bounds (s : State) (p : Port) (w : Word) : BoundsKept s (s.takeView p w) :=
  ((BoundsKept.refl s).setPort_congr p (by rfl) (by rfl)).done p

theorem State.writeStaging_bounds (s : State) (p : Port) (k : SlotNo) (w : Word) : BoundsKept s (s.writeStaging p k w) :=
  ((BoundsKept.refl s).setPort_congr p (by rfl) (by rfl)).done p

theorem State.takeSupView_bounds (s : State) (p : Port) (w : Word) : BoundsKept s (s.takeSupView p w) :=
  BoundsKept.done (boundsKept_fields (by rfl) (by rfl)) p

theorem State.writeTickEnable_bounds (s : State) (p : Port) (w : Word) : BoundsKept s (s.writeTickEnable p w) :=
  BoundsKept.done (boundsKept_fields (by rfl) (by rfl)) p

theorem atLeastOne_ne_zero {n : Nat} (hn : n ≠ 0) (x : BitVec n) : atLeastOne x ≠ 0 := by
  unfold atLeastOne
  split_ifs with h
  · simpa using hn
  · exact h

/-- The terms of one port set to values that are not 0 (R118). -/
theorem TimingSet.setTerms (h : TimingSet s) (n : Port) {x : PortTerms} (hx : x.default ≠ 0 ∧ x.cap ≠ 0) :
    TimingSet { s with terms := s.terms.put n x } := by
  refine ⟨h.collect, h.grace, fun p => ?_⟩
  rw [State.termsOf, Table.look_put]
  split_ifs
  · exact hx
  · exact h.terms p

theorem State.writeReg_bounds (s : State) (p : Port) (a : BitVec 22) (w : Word) (r : Reg) :
    BoundsKept s (s.writeReg p a w r) := by
  cases r with
  | noticePending => exact s.acknowledge_bounds p w
  | noticeEnable => exact s.setEnables_bounds p w
  | faultClear => exact s.clearFault_bounds p
  | holdQueue => exact s.postItem_bounds p w
  | viewIndex => exact s.takeView_bounds p w
  | slotDescA k => exact s.writeStaging_bounds p k w
  | slotDescB k => exact s.sendClaim_bounds p k w _
  | slotCancel k => exact s.cancelSlot_bounds p k _
  | command => exact s.startCommand_bounds p _ _ fun s arg => State.runCommand_bounds _ s arg
  | supViewIndex => exact s.takeSupView_bounds p w
  | tickEnable => exact s.writeTickEnable_bounds p w
  | cmdArg | orphanTicks | prescaleDiv | tickDiv => exact BoundsKept.done (boundsKept_fields (by rfl) (by rfl)) p
  | collectTicks =>
    refine BoundsKept.done ?_ p
    exact boundsKept_timing rfl fun h => ⟨atLeastOne_ne_zero (by decide) _, h.grace, h.terms⟩
  | graceTicks =>
    refine BoundsKept.done ?_ p
    exact boundsKept_timing rfl fun h => ⟨h.collect, atLeastOne_ne_zero (by decide) _, h.terms⟩
  | defaultTerm n =>
    refine BoundsKept.done ?_ p
    exact boundsKept_timing rfl fun h => h.setTerms n ⟨atLeastOne_ne_zero (by decide) _, (h.terms n).2⟩
  | termCap n =>
    refine BoundsKept.done ?_ p
    exact boundsKept_timing rfl fun h => h.setTerms n ⟨(h.terms n).1, atLeastOne_ne_zero (by decide) _⟩
  | _ => exact s.refuse_bounds p _ _

theorem State.readReg_bounds (s : State) (p : Port) (a : BitVec 22) (r : Reg) : BoundsKept s (s.readReg p a r) := by
  by_cases h : ∀ k, r ≠ .slotCollect k
  · rw [State.readReg_eq h]
    exact s.answer_bounds p _
  · simp only [not_forall, not_not] at h
    obtain ⟨k, rfl⟩ := h
    exact s.collectSlot_bounds p k _

/-- A window transaction is refused, or given to its word (R161). -/
theorem State.access_bounds {p : Port} {len : BitVec 4} {a : BitVec 22} {write : Bool} {own : Reg → State → State}
    (h : ∀ r, BoundsKept s (own r s)) : BoundsKept s (s.access p len a write own) := by
  refine State.transact_bounds fun _ => ?_
  cases s.judgeAccess p len a write with
  | ok r => exact h r
  | error c =>
    cases c with
    | portClosed => exact s.answer_bounds p _
    | _ => exact s.refuse_bounds p _ _

theorem State.writeAt_bounds {p : Port} {len : BitVec 4} {r : Reg} {own : State → State} (h : BoundsKept s (own s)) :
    BoundsKept s (s.writeAt p len r own) := State.access_bounds fun _ => h

theorem State.commandWrite_bounds (s : State) (p : Port) (len code : BitVec 4) {act : State → Word → State}
    (h : ∀ s arg, BoundsKept s (act s arg)) : BoundsKept s (s.commandWrite p len code act) :=
  State.writeAt_bounds (s.startCommand_bounds p code _ h)

/-! ## Every step -/

/-- The state that the outcome answers, if it answers one, keeps the bounds. -/
def OutcomeBounded (s : State) (o : Host.Outcome State Fault Refusal) : Prop := ∀ t, o = .next t → BoundsKept s t

theorem BoundsKept.next (h : BoundsKept s t) : OutcomeBounded s (.next t) := by
  rintro _ ⟨⟩
  exact h

theorem exec_bounds (i : Instr) (s : State) : OutcomeBounded s (exec i s) := by
  have hfields : ∀ n, BoundsKept s { s with nreset := n } := fun n => (boundsKept_fields rfl rfl)
  cases i with
  | nreset => exact ((hfields true).trans (State.partReset_bounds _)).next
  | nresetRelease => exact (hfields false).reopen.next
  | portResetLineAssert p =>
    have hline : BoundsKept s (s.modPort p fun r => { r with lineHeld := true, answer := .none }) :=
      (BoundsKept.refl s).setPort_congr p rfl rfl
    refine BoundsKept.next ?_
    cases (s.port p).state with
    | closed => exact hline
    | opened => exact hline.startClose p _
    | closing c st => exact hline.setPort_congr p rfl rfl
  | portResetLineRelease p =>
    have hline : BoundsKept s (s.modPort p fun r => { r with lineHeld := false }) := (BoundsKept.refl s).setPort_congr p rfl rfl
    exact (BoundsKept.trans hline (.ite fun _ => (BoundsKept.refl _).reopen)).next
  | prescaleUnderflow => exact s.prescaleUnderflow_bounds.next
  | leaseTick => exact s.leaseTick_bounds.next
  | termEnd e p => exact (BoundsKept.ite fun _ => s.tickEntry_bounds e).next
  | graceEnd e p => exact (BoundsKept.ite fun _ => s.tickEntry_bounds e).next
  | lapse p k => exact (BoundsKept.ite fun _ => s.tickSlot_bounds p k).next
  | orphanExpiry e => exact (BoundsKept.ite fun _ => s.tickEntry_bounds e).next
  | poolWrite p a be ws =>
    unfold exec execPoolWrite
    dsimp only
    split_ifs
    · exact (State.transact_bounds fun ht => State.takeWrite_bounds (State.takes_read ht) a be ws).next
    · exact fun _ h => by cases h
  | poolRead p a be len => exact (State.transact_bounds fun _ => s.takeRead_bounds p a be len).next
  | heldReadJudge p =>
    refine BoundsKept.next ?_
    cases (s.port p).read with
    | none => exact .refl s
    | some r =>
      dsimp only
      cases r.stage with
      | accepted e => exact .refl s
      | held => exact .ite fun hw => State.judgeRead_bounds (List.isEmpty_iff.1 hw) _ _ _
  | burstStart => exact s.startBurst_bounds.next
  | poolWordReady m => exact (s.wordReady_bounds m).next
  | evaluation =>
    have hanswered : BoundsKept s { s with evalCalled := false } := boundsKept_fields rfl rfl
    exact (BoundsKept.ite fun _ => hanswered.trans (State.walk_bounds _)).next
  | slotDescB p len k w => exact (State.writeAt_bounds (s.sendClaim_bounds p k w _)).next
  | slotCancel p len k w => exact (State.writeAt_bounds (s.cancelSlot_bounds p k _)).next
  | slotCollect p len k => exact (State.access_bounds fun _ => s.collectSlot_bounds p k _).next
  | holdQueue p len w => exact (State.writeAt_bounds (s.postItem_bounds p w)).next
  | release p => exact (BoundsKept.ite fun _ => s.applyHead_bounds p).next
  | renew p => exact (BoundsKept.ite fun _ => s.applyHead_bounds p).next
  | viewIndex p len w => exact (State.writeAt_bounds (s.takeView_bounds p w)).next
  | supViewIndex p len w => exact (State.writeAt_bounds (s.takeSupView_bounds p w)).next
  | noticePending p len w => exact (State.writeAt_bounds (s.acknowledge_bounds p w)).next
  | noticeEnable p len w => exact (State.writeAt_bounds (s.setEnables_bounds p w)).next
  | faultClear p len w => exact (State.writeAt_bounds (s.clearFault_bounds p)).next
  | tickEnable p len w => exact (State.writeAt_bounds (s.writeTickEnable_bounds p w)).next
  | registerWrite p len a w => exact (State.access_bounds fun r => s.writeReg_bounds p a w r).next
  | openPort p len => exact (s.commandWrite_bounds p len _ State.cmdOpenPort_bounds).next
  | closePort p len => exact (s.commandWrite_bounds p len _ State.cmdClosePort_bounds).next
  | recallLease p len => exact (s.commandWrite_bounds p len _ State.cmdRecall_bounds).next
  | revokeLease p len => exact (s.commandWrite_bounds p len _ State.cmdRevoke_bounds).next
  | adoptLease p len => exact (s.commandWrite_bounds p len _ State.cmdAdopt_bounds).next
  | retireLease p len => exact (s.commandWrite_bounds p len _ State.cmdRetire_bounds).next
  | setPool p len => exact (s.commandWrite_bounds p len _ State.cmdSetPool_bounds).next
  | partReset p len => exact (s.commandWrite_bounds p len _ fun s _ => s.partReset_bounds).next
  | unknownCommand p len code => exact (s.commandWrite_bounds p len _ (State.runCommand_bounds code)).next
  | closeSecondStage p => exact (BoundsKept.ite fun _ => (s.applyQueue_bounds p).enterStage p _).next
  | closeThirdStage p =>
    have hslots : BoundsKept s (s.vacateSlots p) :=
      foldl_bounds (op := fun s k => s.vacateSlot p k) (fun s k => s.vacateSlot_bounds p k) allSlots s
    exact (BoundsKept.ite fun _ => hslots.enterStage p _).next
  | closeFourthStage p =>
    have hentries := foldl_bounds (op := fun s e => s.vacateEntry p e) (fun s e => s.vacateEntry_bounds p e) allEntries s
    exact (BoundsKept.ite fun _ => hentries.enterStage p _).next
  | closeSixthStage p => exact (BoundsKept.ite fun _ => s.shutPort_bounds p).next
  | controlWindowRead p len a => exact (State.access_bounds fun r => s.readReg_bounds p a r).next

theorem step_bounds (h : step s = .next t) : BoundsKept s t := by
  unfold step at h
  cases hp : s.pending with
  | nil =>
    obtain rfl : s.clockCycle = t := by simpa [hp] using h
    exact s.clockCycle_bounds
  | cons c rest =>
    simp only [hp] at h
    exact BoundsKept.trans (boundsKept_fields (by rfl) (by rfl)) (exec_bounds c _ t h)

/-- Settles O55, by `step_bounds`: every operation keeps each of the three bounds. -/
theorem boundsKeptByEveryStep : Obligations.BoundsKeptByEveryStep := by
  intro s t hst
  obtain ⟨hrooms, hpool, hcounters⟩ := step_bounds hst
  exact ⟨fun h => roomLaw_iff.2 (hrooms (roomLaw_iff.1 h)), hpool,
    fun h => countersLaw_iff.2 (hcounters (countersLaw_iff.1 h))⟩

end Sys2Proof.Machine
end

section
/-! OBLIGATIONS. Holdings over their term: the end of a term, the recall by the supervisor, and the holding queue. -/

namespace Sys2Proof.Machine

variable {s : State}

/-! ## The end of a term (R74, R76) -/

/-- What is found of a port whose first holding is kept: no order of the holdings is needed. -/
theorem find?_filterMap_of_kept {f : Holding → Option Holding} (hf : ∀ h h', f h = some h' → h'.port = h.port) {p : Port}
    {hs : List Holding} {h h' : Holding} (hfind : hs.find? (fun h => h.port == p) = some h) (hkept : f h = some h') :
    (hs.filterMap f).find? (fun h => h.port == p) = some h' := by
  obtain ⟨hp, before, behind, rfl, hbefore⟩ := List.find?_eq_some_iff_append.1 hfind
  refine List.find?_eq_some_iff_append.2 ⟨by rwa [hf h h' hkept], before.filterMap f, behind.filterMap f, ?_, fun g' hg' => ?_⟩
  · rw [List.filterMap_append, List.filterMap_cons_some hkept]
  · obtain ⟨g, hg, hfg⟩ := List.mem_filterMap.1 hg'
    rw [hf g g' hfg]
    exact hbefore g hg

/-- A HELD holding outlasts the tick that ends its term: RECALLED under contest, and else OVERDUE (R74, R76). -/
theorem Holding.tick_held {h : Holding} (c : Bool) (g : BitVec 8) (hs : h.state = .held) :
    h.tick c g = some
      (if 1 < h.term then { h with term := h.term - 1 } else if c = true then h.recall g false else h.overdue) := by
  unfold Holding.tick
  simp only [hs]
  by_cases hterm : 1 < h.term
  · rw [if_pos hterm, if_neg (BitVec.not_le.2 hterm)]
  · rw [if_neg hterm, if_pos (BitVec.not_lt.1 hterm)]

/-- Settles O11: the event is `tickEntry`, which keeps a HELD holding, so that the entry stays LIVE. -/
theorem termEndMovesHoldingOn : Obligations.TermEndMovesHoldingOn := by
  intro e p s hdue hen hlive hheld
  have hexec : exec (.termEnd e p) s = .next (s.tickEntry e) := by
    simp [exec, execTermEnd, State.tickWaits, hdue, hen, hheld]
  obtain ⟨h, hfind, hstate⟩ := Option.map_eq_some_iff.1 hheld
  have hkept : (afterTick s (s.entry e)).find? (fun g => g.port == p) = _ :=
    find?_filterMap_of_kept (fun _ _ ht => (Holding.tick_some ht).1) hfind (Holding.tick_held _ _ hstate)
  have hstays : afterTick s (s.entry e) ≠ [] := fun hnil => by simp [hnil] at hkept
  have htick := tickTakenAt_live (s.tickEntry_takes e) hlive
  rw [if_neg fun hc => hstays hc.2] at htick
  refine ⟨s.tickEntry e, hexec, htick, fun g hg => ?_⟩
  obtain rfl : h = g := Option.some.inj (hfind.symm.trans hg)
  obtain ⟨-, -, hentry, -⟩ := htick
  rw [hentry]
  exact hkept

/-! ## RECALL_LEASE (R80, R141) -/

theorem mem_collectedPorts {hs : List Holding} {q : Port} :
    q ∈ (hs.filter Holding.collected).map Holding.port ↔ ∃ g ∈ hs, g.port = q ∧ g.state ≠ .awarded := by
  simp only [List.mem_map, List.mem_filter, Holding.collected, bne_iff_ne, and_assoc, and_comm (a := _ ≠ _)]

/-- The forced recall of a holding, said by its state (R80). -/
theorem Holding.forceRecall_eq (g : Holding) (grace : BitVec 8) :
    (if g.collected then g.recall grace true else g) =
      if g.state = .awarded then g
      else { g with state := .recalled, term := 0, grace := grace, forced := true } := by
  by_cases ha : g.state = .awarded
  · rw [if_pos ha, if_neg (by simp [Holding.collected, ha])]
  · rw [if_neg ha, if_pos (by simp [Holding.collected, ha])]
    rfl

/-- The ports after a command that completed and was answered DONE (R138, R139). -/
theorem completed_port (s : State) (code : BitVec 4) (r : CmdResult) (q : Port) :
    (completed s code r).port q =
      flagsSet (portsBut s 0 (answered (s.port 0) (.done [])) q) (if q = 0 then 0x20 else 0) := by
  refine (s.setPort_port 0 q _).trans ?_
  unfold portsBut
  by_cases hq : q = 0
  · rw [if_pos hq, if_pos hq, if_pos hq]
    rfl
  · rw [if_neg hq, if_neg hq, if_neg hq]
    exact (flagsSet_zero _).symm

/-- Past its checks the command is `forceRecall`, completed with OK (R141). -/
theorem exec_recallLease (hc : commandable s)
    (hgen : (s.entry (handleOf s.cmdArg).entry).generation = (handleOf s.cmdArg).generation)
    (hlive : (s.entry (handleOf s.cmdArg).entry).state = .live) :
    exec (.recallLease 0 0) s = .next (completed
      (State.forceRecall { s with engine := some ⟨3, s.cmdArg⟩ } (handleOf s.cmdArg).entry) 3 .ok) := by
  have hcur : State.current { s with engine := some ⟨Cmd.recallLease, s.cmdArg⟩ } (handleOf s.cmdArg) = true :=
    beq_iff_eq.2 hgen
  simp only [exec, execRecallLease, State.commandWrite_of_commandable hc, State.cmdRecall, hcur, Bool.not_true]
  refine congrArg Host.Outcome.next (Eq.trans ?_ (State.complete_done _ _ _))
  exact congrArg (fun u : State => u.done 0) (if_neg (not_not.2 hlive))

/-- Settles O45: past its checks the command is `forceRecall`, completed with OK and answered DONE. -/
theorem recallForcesEveryCollectedHolding : Obligations.RecallForcesEveryCollectedHolding := by
  rintro s h x hc rfl rfl hgen hlive
  have hrecall := State.forceRecall_becomes { s with engine := some ⟨3, s.cmdArg⟩ } (handleOf s.cmdArg).entry
  refine ⟨_, exec_recallLease hc hgen hlive, ?_⟩
  generalize State.forceRecall { s with engine := some ⟨3, s.cmdArg⟩ } (handleOf s.cmdArg).entry = u at hrecall ⊢
  obtain ⟨hframe, hothers, hentry, heval, -, -, hports⟩ := hrecall
  refine ⟨?_, hothers, ?_, heval, rfl, rfl, fun q => ?_⟩
  · unfold leaseFrame completed
    rw [hframe]
    rfl
  · simp only [Holding.forceRecall_eq] at hentry
    exact hentry
  · rw [completed_port, ← flagsSet_flagsSet]
    refine congrArg (flagsSet · _) ?_
    simp only [portsBut, hports, mem_collectedPorts, answered_flagsSet]
    by_cases hq : q = 0
    · subst hq
      rfl
    · rw [if_neg hq, if_neg hq]
      rfl

/-! ## The items of the holding queue (R84, R85, R128) -/

/-- The head item's own event applies it, whatever its kind (R85). -/
theorem exec_headItem {p : Port} {i : HoldItem} {rest : List HoldItem} (hq : (s.port p).holdQueue = i :: rest) :
    exec (if i.kind = .release then .release p else .renew p) s = .next (s.applyHead p) := by
  cases hk : i.kind with
  | release => simp [exec, execRelease, State.headKind, hq, hk]
  | renew => simp [exec, execRenew, State.headKind, hq, hk]

/-- The head item leaves the queue in its event, and the port's state stays (R85). -/
theorem State.applyHead_takes {p : Port} {i : HoldItem} {rest : List HoldItem} (hq : (s.port p).holdQueue = i :: rest) :
    ((s.applyHead p).port p).state = (s.port p).state ∧ ((s.applyHead p).port p).holdQueue = rest := by
  obtain ⟨hstate, hqueue⟩ := s.applyHead_port p
  exact ⟨hstate, by rw [hqueue, hq, List.tail_cons]⟩

/-- The queue is applied from its head (R85, R128). -/
theorem State.applyQueue_cons {p : Port} {i : HoldItem} {rest : List HoldItem} (hq : (s.port p).holdQueue = i :: rest) :
    s.applyQueue p = (s.applyHead p).applyQueue p := by
  obtain ⟨-, hrest⟩ := State.applyHead_takes hq
  rw [State.applyQueue, State.applyQueue, hq, hrest, List.foldl_cons]

theorem exec_closeSecondStage {p : Port} {c : CloseCause} (h : (s.port p).state = .closing c .second) :
    exec (.closeSecondStage p) s = .next ((s.applyQueue p).setPort p
      { (s.applyQueue p).port p with state := .closing c .third }) := by
  have hst : (s.closeStage p == some .second) = true := beq_iff_eq.2 (State.closeStage_eq_some.2 ⟨c, h⟩)
  obtain ⟨hstate, -⟩ := s.applyQueue_port p
  rw [exec, execCloseSecondStage, if_pos hst, State.enterStage_eq (hstate.trans h)]

/-- Settles O50: the stage is `applyQueue`, which goes on from the head item's own event. -/
theorem secondStageAppliesQueue : Obligations.SecondStageAppliesQueue := by
  intro p c s hst
  refine ⟨fun hempty => ?_, fun i rest hq => ?_⟩
  · have hsame : s.applyQueue p = s := by rw [State.applyQueue, hempty, List.foldl_nil]
    rw [exec_closeSecondStage hst, hsame]
  · obtain ⟨hstate, hrest⟩ := State.applyHead_takes hq
    refine ⟨s.applyHead p, exec_headItem hq, hstate.trans hst, hrest, ?_⟩
    rw [exec_closeSecondStage hst, exec_closeSecondStage (hstate.trans hst), ← State.applyQueue_cons hq]

/-! ## HOLD_QUEUE (R83, R84) -/

theorem rowAt_holdQueue : inSupervisorWindow Reg.holdQueue.addr = false ∧
    rowAt Reg.holdQueue.addr = some ⟨0x01C, .holdQueue, true, true⟩ := by decide

/-- A port that is not OPEN is refused with PORT_CLOSED at every word but PORT_STATUS (R121). -/
theorem State.access_of_not_opened {p : Port} (hl : listens s p) (hp : (s.port p).state ≠ .opened) {a : BitVec 22}
    (ha : a ≠ Reg.portStatus.addr) (len : BitVec 4) (write : Bool) (own : Reg → State → State) :
    s.access p len a write own = s.setPort p (answered (s.port p) (.refuse .portClosed)) := by
  rcases State.judgeAccess_closed hp len a write with hj | ⟨-, -, hstatus, -⟩
  · rw [State.access, s.transact_of_listens _ hl, hj]
    exact s.refuseClosed_eq p
  · exact absurd hstatus ha

theorem exec_holdQueue {p : Port} (hp : serves s p) (w : Word) : exec (.holdQueue p 0 w) s = .next (s.postItem p w) := by
  obtain ⟨hin, hrow⟩ := rowAt_holdQueue
  rw [exec, execHoldQueue, State.writeAt_of_row hp (.inr hin) hrow rfl]

theorem exec_holdQueue_read {p : Port} (hp : serves s p) :
    exec (.controlWindowRead p 0 Reg.holdQueue.addr) s = .next (s.doneWord p (s.holdCountWord p)) := by
  obtain ⟨hin, hrow⟩ := rowAt_holdQueue
  exact congrArg Host.Outcome.next (State.access_of_row hp (.inr hin) hrow rfl)

/-- Settles O31: the transactions by the port's state and the room in its queue, and the room made by `applyHead`. -/
theorem holdQueuePostsAndCounts : Obligations.HoldQueuePostsAndCounts := by
  intro p w s hl
  refine ⟨fun hp hroom => ?posted, fun hp hfull => ?retry, fun hp hfour => ?room, fun hp hcount => ?count,
    fun hp => ⟨?closed_write, ?closed_read⟩⟩
  case posted =>
    rw [exec_holdQueue ⟨hl, hp⟩, State.postItem, if_pos hroom, State.modPort_done]
    rfl
  case retry => rw [exec_holdQueue ⟨hl, hp⟩, State.postItem, if_neg (by omega), State.answer_eq]
  case room =>
    obtain ⟨i, rest, hq⟩ := List.exists_cons_of_length_eq_add_one hfour
    obtain ⟨hstate, hrest⟩ := State.applyHead_takes hq
    have hhead := exec_headItem hq
    refine ⟨s.applyHead p, ?_, ?_, hstate.trans hp⟩
    · split_ifs at hhead
      · exact .inl hhead
      · exact .inr hhead
    · rw [hq, List.length_cons] at hfour
      rw [hrest]
      omega
  case count => rw [exec_holdQueue_read ⟨hl, hp⟩, State.holdCountWord_eq hcount, State.doneWord_eq]
  case closed_write =>
    exact congrArg Host.Outcome.next (State.access_of_not_opened hl hp (by decide) 0 true _)
  case closed_read =>
    exact congrArg Host.Outcome.next (State.access_of_not_opened hl hp (by decide) 0 false _)

end Sys2Proof.Machine
end

section
/-! OBLIGATIONS. The judgment of bursts: pool writes, pool reads and held reads by Table 23. -/

namespace Sys2Proof.Machine

/-! ## Table 23 from its second step on (R96 to R98) -/

section Judgment

variable {s : State} {p : Port} {a : BitVec 22} {n : Nat} {write : Bool} {e : EntryId}

theorem State.judgeBurst_outOfPool (h : s.poolPages.toNat * 1024 ≤ byteAddr a) :
    s.judgeBurst p a n write = .error .outOfPool := if_pos h

theorem State.judgeBurst_align (hin : byteAddr a < s.poolPages.toNat * 1024) (h : 1024 < byteAddr a % 1024 + 4 * n) :
    s.judgeBurst p a n write = .error .align := by
  rw [State.judgeBurst, if_neg (Nat.not_le.2 hin), if_pos h]

variable (hin : byteAddr a < s.poolPages.toNat * 1024) (hfit : byteAddr a % 1024 + 4 * n ≤ 1024)
include hin hfit

theorem State.judgeBurst_uncovered (hc : s.covering p (pageOf a) = none) : s.judgeBurst p a n write = .error .notHeld := by
  rw [State.judgeBurst, if_neg (Nat.not_le.2 hin), if_neg (Nat.not_lt.2 hfit), hc]

theorem State.judgeBurst_awarded (hc : s.covering p (pageOf a) = some e) (ha : (s.entry e).holdingState p = some .awarded) :
    s.judgeBurst p a n write = .error .notHeld := by
  rw [State.judgeBurst, if_neg (Nat.not_le.2 hin), if_neg (Nat.not_lt.2 hfit), hc]
  simp only [ha]

/-- Under a collected holding the mode alone decides (R97, R98). -/
theorem State.judgeBurst_collected (hc : s.covering p (pageOf a) = some e)
    (ha : (s.entry e).holdingState p ≠ some .awarded) :
    s.judgeBurst p a n write = if write && (s.entry e).mode == .shared then .error .mode else .ok e := by
  have hheld : (s.entry e).holdingState p ≠ none := by
    have hfound := List.find?_some hc
    simp only [Bool.and_eq_true, Option.isSome_iff_ne_none] at hfound
    simpa [Entry.holdingState] using hfound.2
  rw [State.judgeBurst, if_neg (Nat.not_le.2 hin), if_neg (Nat.not_lt.2 hfit), hc]
  cases hst : (s.entry e).holdingState p with
  | none => exact absurd hst hheld
  | some st =>
    cases st with
    | awarded => exact absurd hst ha
    | held | overdue | recalled => simp only [hst]

theorem State.judgeBurst_shared (hc : s.covering p (pageOf a) = some e) (ha : (s.entry e).holdingState p ≠ some .awarded)
    (hm : (s.entry e).mode = .shared) : s.judgeBurst p a n true = .error .mode := by
  rw [State.judgeBurst_collected hin hfit hc ha, hm]
  rfl

theorem State.judgeBurst_exclusive (hc : s.covering p (pageOf a) = some e) (ha : (s.entry e).holdingState p ≠ some .awarded)
    (hm : (s.entry e).mode = .exclusive) : s.judgeBurst p a n true = .ok e := by
  rw [State.judgeBurst_collected hin hfit hc ha, hm]
  rfl

theorem State.judgeBurst_read (hc : s.covering p (pageOf a) = some e) (ha : (s.entry e).holdingState p ≠ some .awarded) :
    s.judgeBurst p a n false = .ok e := State.judgeBurst_collected hin hfit hc ha

end Judgment

variable {s : State}

/-! ## POOL_WRITE (R99, R101, R121) -/

theorem exec_poolWrite {p : Port} {ws : List Word} (hl : listens s p) (hone : 1 ≤ ws.length) (hmax : ws.length ≤ 16)
    (a : BitVec 22) (be : BitVec 4) : exec (.poolWrite p a be ws) s = .next (s.takeWrite p a be ws) := by
  rw [exec, execPoolWrite, if_pos ⟨hone, hmax⟩, s.transact_of_listens _ hl]

theorem State.takeWrite_of_error {p : Port} {a : BitVec 22} {ws : List Word} {c : RefusalCode} (hp : (s.port p).state = .opened)
    (hroom : (s.port p).writeBuffer.length < 2) (hj : s.judgeBurst p a ws.length true = .error c) (be : BitVec 4) :
    s.takeWrite p a be ws = s.setPort p (refusedPort (s.port p) c (.write (poolAddr a))) := by
  rw [State.takeWrite, if_neg (not_not.2 hp), if_neg (Nat.not_le.2 hroom), hj]
  exact s.refuse_eq p c _

theorem State.takeWrite_of_ok {p : Port} {a : BitVec 22} {ws : List Word} {e : EntryId} (hp : (s.port p).state = .opened)
    (hroom : (s.port p).writeBuffer.length < 2) (hj : s.judgeBurst p a ws.length true = .ok e) (be : BitVec 4) :
    s.takeWrite p a be ws = (s.setEntry e { s.entry e with inFlight := (s.entry e).inFlight + 1 }).setPort p
      { s.port p with
          answer := .done []
          writeBuffer := (s.port p).writeBuffer ++ [{ addr := a, enables := be, words := ws, entry := e }] } := by
  rw [State.takeWrite, if_neg (not_not.2 hp), if_neg (Nat.not_le.2 hroom), hj]
  exact State.modPort_done _ p _

/-- Settles O17: each judgment of Table 23 by its equation, and what the write leaves after it. -/
theorem poolWriteJudged : Obligations.PoolWriteJudged := by
  rintro p a be ws s _ _ hl hone hmax rfl rfl
  have taken := exec_poolWrite hl hone hmax a be
  have refused {c} (hp : (s.port p).state = .opened) (hroom : (s.port p).writeBuffer.length < 2)
      (hj : s.judgeBurst p a ws.length true = .error c) :
      exec (.poolWrite p a be ws) s = .next (s.setPort p (refusedPort (s.port p) c (.write (poolAddr a)))) := by
    rw [taken, State.takeWrite_of_error hp hroom hj]
  refine ⟨fun hp => ?closed, fun hp hfull => ?full, fun hp hroom hout => refused hp hroom (State.judgeBurst_outOfPool hout),
    fun hp hroom hin hcross => refused hp hroom (State.judgeBurst_align hin hcross), fun hp hroom hin hfit =>
    ⟨fun hc => refused hp hroom (State.judgeBurst_uncovered hin hfit hc), fun e hc =>
      ⟨fun ha => refused hp hroom (State.judgeBurst_awarded hin hfit hc ha),
       fun ha hm => refused hp hroom (State.judgeBurst_shared hin hfit hc ha hm), fun ha hm => ?accepted⟩⟩⟩
  case closed => rw [taken, State.takeWrite, if_pos hp, State.refuseClosed_eq]
  case full => rw [taken, State.takeWrite, if_neg (not_not.2 hp), if_pos hfull, State.answer_eq]
  case accepted => rw [taken, State.takeWrite_of_ok hp hroom (State.judgeBurst_exclusive hin hfit hc ha hm)]

/-! ## The judgment of a read (R99, R131) -/

theorem State.judgeRead_of_error {p : Port} {a : BitVec 22} {len : BitVec 4} {c : RefusalCode}
    (hj : s.judgeBurst p a (len.toNat + 1) false = .error c) (be : BitVec 4) :
    s.judgeRead p a be len = s.setPort p (readRefusedPort (s.port p) c a) := by
  rw [State.judgeRead, hj]
  exact s.refuseRead_eq p a c

theorem State.judgeRead_of_ok {p : Port} {a : BitVec 22} {len : BitVec 4} {e : EntryId}
    (hj : s.judgeBurst p a (len.toNat + 1) false = .ok e) (be : BitVec 4) :
    s.judgeRead p a be len = (s.setEntry e { s.entry e with inFlight := (s.entry e).inFlight + 1 }).setPort p
      { s.port p with read := some { addr := a, enables := be, len := len, stage := .accepted e } } := by
  rw [State.judgeRead, hj]
  rfl

/-! ## POOL_READ (R103, R121) -/

theorem exec_poolRead {p : Port} (hl : listens s p) (a : BitVec 22) (be len : BitVec 4) :
    exec (.poolRead p a be len) s = .next (s.takeRead p a be len) := by
  rw [exec, execPoolRead, s.transact_of_listens _ hl]

/-- At an OPEN port with no read under way, the refusal of a read is that of any other transaction (R96, R157). -/
theorem readRefusedPort_answered {r : PortRec} (hp : r.state = .opened) (hr : r.read = none) (c : RefusalCode)
    (a : BitVec 22) : readRefusedPort (answered r .none) c a = refusedPort r c (.read (poolAddr a)) := by
  cases r
  subst hp hr
  rfl

/-- With its write buffer empty, an OPEN port's read is judged at once, with no answer on the lines meanwhile (R95, R103). -/
theorem State.takeRead_judges {p : Port} (hp : (s.port p).state = .opened) (hw : (s.port p).writeBuffer = [])
    (a : BitVec 22) (be len : BitVec 4) : s.takeRead p a be len = (s.answer p .none).judgeRead p a be len := by
  rw [State.takeRead, if_neg (not_not.2 hp), if_pos (List.isEmpty_iff.2 hw)]

theorem State.takeRead_holds {p : Port} (hp : (s.port p).state = .opened) (hw : (s.port p).writeBuffer ≠ [])
    (a : BitVec 22) (be len : BitVec 4) : s.takeRead p a be len = s.setPort p
      { s.port p with answer := .none, read := some { addr := a, enables := be, len := len, stage := .held } } := by
  rw [State.takeRead, if_neg (not_not.2 hp), if_neg (mt List.isEmpty_iff.1 hw), State.modPort_eq, State.answer_eq,
    State.setPort_setPort, State.setPort_port_self]
  rfl

/-- Settles O18: the order of Table 23 as for a write, with the judgment of the read. -/
theorem poolReadJudged : Obligations.PoolReadJudged := by
  rintro p a be len s _ _ hl rfl rfl
  obtain ⟨-, -, hread⟩ := id hl
  have taken := exec_poolRead hl a be len
  have refused {c} (hp : (s.port p).state = .opened) (hw : (s.port p).writeBuffer = [])
      (hj : (s.answer p .none).judgeBurst p a (len.toNat + 1) false = .error c) :
      exec (.poolRead p a be len) s = .next (s.setPort p (refusedPort (s.port p) c (.read (poolAddr a)))) := by
    rw [taken, State.takeRead_judges hp hw, State.judgeRead_of_error hj, State.answer_eq, State.setPort_setPort,
      State.setPort_port_self, readRefusedPort_answered hp hread]
  refine ⟨fun hp => ?closed, fun hp hw => ?held, fun hp hw hout => refused hp hw (State.judgeBurst_outOfPool hout),
    fun hp hw hin hcross => refused hp hw (State.judgeBurst_align hin hcross), fun hp hw hin hfit =>
    ⟨fun hc => refused hp hw (State.judgeBurst_uncovered hin hfit hc), fun e hc =>
      ⟨fun ha => refused hp hw (State.judgeBurst_awarded hin hfit hc ha), fun ha => ?accepted⟩⟩⟩
  case closed => rw [taken, State.takeRead, if_pos hp, State.refuseClosed_eq]
  case held => rw [taken, State.takeRead_holds hp hw]
  case accepted =>
    have hj : (s.answer p .none).judgeBurst p a (len.toNat + 1) false = .ok e := State.judgeBurst_read hin hfit hc ha
    rw [taken, State.takeRead_judges hp hw, State.judgeRead_of_ok hj, State.answer_eq, State.setPort_setEntry,
      State.setPort_setPort, State.setPort_port_self]
    rfl

/-! ## HELD_READ_JUDGE (R103, R131) -/

theorem exec_heldReadJudge {p : Port} {r : PortRead} (hr : (s.port p).read = some r) (hst : r.stage = .held)
    (hw : (s.port p).writeBuffer = []) :
    exec (.heldReadJudge p) s = .next (s.judgeRead p r.addr r.enables r.len) := by
  rw [exec, execHeldReadJudge, hr]
  simp only [hst, hw, List.isEmpty_nil, if_true]

/-- Settles O19: the judgment of the read, whatever the port's state. -/
theorem heldReadJudged : Obligations.HeldReadJudged := by
  rintro p a be len s _ _ rfl hr hw rfl
  have judged := exec_heldReadJudge hr rfl hw
  have refused {c} (hj : s.judgeBurst p a (len.toNat + 1) false = .error c) :
      exec (.heldReadJudge p) s = .next (s.setPort p (readRefusedPort (s.port p) c a)) := by
    rw [judged, State.judgeRead_of_error hj]
  exact ⟨fun hout => refused (State.judgeBurst_outOfPool hout), fun hin hcross => refused (State.judgeBurst_align hin hcross),
    fun hin hfit => ⟨fun hc => refused (State.judgeBurst_uncovered hin hfit hc), fun e hc =>
      ⟨fun ha => refused (State.judgeBurst_awarded hin hfit hc ha), fun ha =>
        by rw [judged, State.judgeRead_of_ok (State.judgeBurst_read hin hfit hc ha)]⟩⟩⟩

end Sys2Proof.Machine
end

section
/-! OBLIGATIONS. The pool memory port: the rotation, one word access, and what part reset leaves of the pool. -/

namespace Sys2Proof.Machine

variable {s : State}

/-! ## What a port offers, and the rotation (R105) -/

theorem State.offered_write {p : Port} {w : WriteBurst} {rest : List WriteBurst} (hw : (s.port p).writeBuffer = w :: rest) :
    s.offered p = some
      { port := p, kind := .write w.words, addr := w.addr, enables := w.enables, entry := w.entry, done := 0, got := [],
        parityError := false } := by
  rw [State.offered, hw]

theorem State.offered_read {p : Port} {r : PortRead} {e : EntryId} (hw : (s.port p).writeBuffer = [])
    (hr : (s.port p).read = some r) (hst : r.stage = .accepted e) :
    s.offered p = some
      { port := p, kind := .read r.len, addr := r.addr, enables := r.enables, entry := e, done := 0, got := [],
        parityError := false } := by
  rw [State.offered, hw, hr]
  simp only [hst]

theorem State.offered_none {p : Port} (hw : (s.port p).writeBuffer = []) (hr : ∀ r ∈ (s.port p).read, r.stage = .held) :
    s.offered p = none := by
  rw [State.offered, hw]
  cases hread : (s.port p).read with
  | none => rfl
  | some r => simp only [hr r hread]

/-- The ports before a port in rotation order are those at a smaller distance from the pointer. -/
theorem State.rotation_split (s : State) (i : Port) :
    ∃ before after, s.rotation = before ++ (s.pointer + i) :: after ∧ ∀ q ∈ before, ∃ j, j < i ∧ q = s.pointer + j := by
  fin_cases i
  · exact ⟨[], _, congrArg (· :: _) (add_zero _).symm, by simp⟩
  · exact ⟨[s.pointer], _, rfl, by simp⟩
  · exact ⟨[s.pointer, s.pointer + 1], _, rfl, by simp⟩
  · exact ⟨[s.pointer, s.pointer + 1, s.pointer + 2], _, rfl, by simp⟩

theorem State.startBurst_of_first {i : Port} {b : ActiveBurst} (hfree : s.memPort = none)
    (hb : s.offered (s.pointer + i) = some b) (hnone : ∀ j, j < i → s.offered (s.pointer + j) = none) :
    s.startBurst = { s with memPort := some b, pointer := s.pointer + i + 1 } := by
  have hfirst : s.rotation.findSome? s.offered = some b := by
    obtain ⟨before, after, hsplit, hbefore⟩ := s.rotation_split i
    refine List.findSome?_eq_some_iff.2 ⟨before, _, after, hsplit, hb, fun q hq => ?_⟩
    obtain ⟨j, hj, rfl⟩ := hbefore q hq
    exact hnone j hj
  obtain ⟨hport, -⟩ := State.offered_some hb
  rw [State.startBurst, if_neg (by simp [hfree]), hfirst, ← hport]

/-- Settles O20: what a port offers by the head of its buffer and its read, and the first offer in rotation order. -/
theorem burstStartRotates : Obligations.BurstStartRotates := by
  refine ⟨fun s p w rest => State.offered_write, fun s p r e => State.offered_read, fun s p => State.offered_none,
    fun s i b hfree hb hnone => ?_⟩
  exact congrArg Host.Outcome.next (State.startBurst_of_first hfree hb hnone)

/-! ## One word access (R102, R104, R109) -/

theorem State.endWord_write {b : ActiveBurst} {ws : List Word} {w : Word} (hk : b.kind = .write ws) (hw : ws[b.done]? = some w)
    (m : MemAnswer) :
    s.endWord b m = (s.writeWord (byteAddr b.wordAddr) b.enables w, { b with done := b.done + 1 }) := by
  unfold State.endWord
  simp only [hk, hw]

theorem State.endWord_read {b : ActiveBurst} {len : BitVec 4} (hk : b.kind = .read len) (m : MemAnswer) :
    s.endWord b m = (s, b.took (s.readWord m (byteAddr b.wordAddr) b.enables)
      (s.parityFails m (byteAddr b.wordAddr) b.enables)) := by
  unfold State.endWord
  simp only [hk, ActiveBurst.took]

/-- Ready for a word that is not the burst's last goes on to the next one. -/
theorem State.wordReady_goesOn {b : ActiveBurst} {m : MemAnswer} {u : State} {c : ActiveBurst} (hb : s.memPort = some b)
    (hword : s.endWord b m = (u, c)) (hmore : c.done < c.length) : s.wordReady m = { u with memPort := some c } := by
  rw [State.wordReady, hb]
  simp only [hword]
  exact if_pos hmore

/-! ## The pins of the memory port (R108, R168, R169) -/

theorem State.memPins_write {b : ActiveBurst} {ws : List Word} (hb : s.memPort = some b) (hn : s.nreset = false)
    (hk : b.kind = .write ws) : s.memPins =
      { cen := false, wen := false, oen := true, bwen := ~~~b.enables, addr := some b.wordAddr, data := ws[b.done]?,
        parity := ws[b.done]?.map wordParity } := by
  rw [State.memPins, hn, hb]
  simp [hk]

theorem State.memPins_read {b : ActiveBurst} {len : BitVec 4} (hb : s.memPort = some b) (hn : s.nreset = false)
    (hk : b.kind = .read len) : s.memPins =
      { cen := false, wen := true, oen := false, bwen := 0xF, addr := some b.wordAddr, data := none, parity := none } := by
  rw [State.memPins, hn, hb]
  simp [hk]

theorem State.memPins_idle (h : s.memPort = none ∨ s.nreset = true) : s.memPins =
    { cen := true, wen := true, oen := true, bwen := 0xF, addr := none, data := none, parity := none } := by
  have hidle : (if s.nreset then none else s.memPort) = none := by
    rcases h with h | h <;> simp [h]
  rw [State.memPins, hidle]

theorem wordParity_lane (w : Word) (i : Fin 4) : (wordParity w).getLsbD i.val = parityBit (laneByte w i) := by
  have hlanes : lanes = [0, 1, 2, 3] := by decide
  unfold wordParity
  simp only [hlanes, List.foldl_cons, List.foldl_nil]
  fin_cases i <;> simp

/-- Settles O21: the pins by the kind of the burst, and the word access before the burst goes on. -/
theorem wordReadyCarriesOneWord : Obligations.WordReadyCarriesOneWord := by
  refine ⟨fun s b hb hn => ?pins, fun s h => State.memPins_idle h, fun m b ws w s hb hk hw hmore => ?write,
    fun m b len s hb hk hmore => ?read⟩
  case pins =>
    cases hk : b.kind with
    | write ws =>
      rw [State.memPins_write hb hn hk]
      refine ⟨rfl, rfl, nofun, ?_⟩
      rintro _ w ⟨⟩ hw
      refine ⟨rfl, rfl, hw, fun i => ?_, wordParity w, by rw [hw]; rfl, wordParity_lane w⟩
      rw [BitVec.getLsbD_not, decide_eq_true i.isLt, Bool.true_and]
    | read len =>
      rw [State.memPins_read hb hn hk]
      exact ⟨rfl, rfl, fun _ _ => ⟨rfl, rfl, rfl⟩, nofun⟩
  case write =>
    obtain ⟨hstores, hframe, -⟩ := s.writeWord_stores (byteAddr b.wordAddr) b.enables w
    have hready : s.wordReady m =
        { s.writeWord (byteAddr b.wordAddr) b.enables w with memPort := some { b with done := b.done + 1 } } := by
      refine State.wordReady_goesOn hb (State.endWord_write hk hw m) ?_
      simpa only [ActiveBurst.length, hk] using hmore
    refine ⟨_, congrArg Host.Outcome.next hready, hstores, ?_⟩
    rw [hframe]
  case read =>
    have hready : s.wordReady m = { s with memPort := some (b.took (s.readWord m (byteAddr b.wordAddr) b.enables)
        (s.parityFails m (byteAddr b.wordAddr) b.enables)) } := by
      refine State.wordReady_goesOn hb (State.endWord_read hk m) ?_
      simpa only [ActiveBurst.took, ActiveBurst.length, hk] using Nat.succ_lt_succ hmore
    exact ⟨_, _, congrArg Host.Outcome.next hready, s.readWord_lane m _ _, s.parityFails_iff m _ _⟩

/-! ## Part reset and the word under way (R110) -/

/-- A byte that part reset has touched: written with its parity, or left with data and parity that do not agree. -/
def tornTo (t : State) (a : Nat) (b : Byte) : Prop :=
  (t.poolByte a = b ∧ t.poolParityAt a = parityBit (t.poolByte a)) ∨ t.poolParityAt a ≠ parityBit (t.poolByte a)

/-- Every byte is as it was, but for enabled lanes of the word, each of which may have been touched. -/
def lanesTorn (s t : State) (base : Nat) (be : BitVec 4) (w : Word) : Prop :=
  ∀ a, byteKept s t a ∨ ∃ i : Fin 4, be.getLsbD i.val = true ∧ a = base + i.val ∧ tornTo t a (laneByte w i)

variable {t u : State} {base : Nat} {be : BitVec 4} {w : Word}

theorem byteKept_trans {a : Nat} (h : byteKept s u a) (h' : byteKept u t a) : byteKept s t a :=
  ⟨h'.1.trans h.1, h'.2.trans h.2⟩

theorem lanesTorn_of_stores (h : storesWord s t base be w) : lanesTorn s t base be w := by
  obtain ⟨hstored, hkept⟩ := h
  intro a
  by_cases ha : ∃ i : Fin 4, be.getLsbD i.val = true ∧ a = base + i.val
  · obtain ⟨i, hi, rfl⟩ := ha
    obtain ⟨hbyte, hparity⟩ := hstored i hi
    exact .inr ⟨i, hi, rfl, .inl ⟨hbyte, by rw [hparity, hbyte]⟩⟩
  · exact .inl (hkept a fun i hi he => ha ⟨i, hi, he⟩)

theorem State.tearLane_byte (s : State) (draw a c : Nat) (b : Byte) :
    byteKept s (s.tearLane draw a b) c ∨ c = a ∧ tornTo (s.tearLane draw a b) c b := by
  unfold State.tearLane
  dsimp only
  by_cases hc : c = a
  · subst hc
    split_ifs
    · exact .inl ⟨rfl, rfl⟩
    · exact .inr ⟨rfl, .inl (by simp [State.setLane_poolByte, State.setLane_poolParityAt])⟩
    · exact .inr ⟨rfl, .inr (by simp [State.setLane_poolByte, State.setLane_poolParityAt])⟩
  · left
    split_ifs <;> simp [byteKept, State.setLane_poolByte, State.setLane_poolParityAt, hc]

/-- Lanes torn one after another: a byte touched by one of them is not put back by the others. -/
theorem lanesTorn_foldl (draw : Nat) (l : List (Fin 4)) (s : State) :
    lanesTorn s (l.foldl (fun t i => if be.getLsbD i.val then t.tearLane draw (base + i.val) (laneByte w i) else t) s)
      base be w := by
  induction l generalizing s with
  | nil => exact fun a => .inl ⟨rfl, rfl⟩
  | cons i l ih =>
    intro a
    rw [List.foldl_cons]
    split_ifs with hi
    · rcases ih (s.tearLane draw (base + i.val) (laneByte w i)) a with hkept | htorn
      · rcases s.tearLane_byte draw (base + i.val) a (laneByte w i) with hfirst | ⟨ha, htorn⟩
        · exact .inl (byteKept_trans hfirst hkept)
        · refine .inr ⟨i, hi, ha, ?_⟩
          unfold tornTo
          rwa [hkept.1, hkept.2]
      · exact .inr htorn
    · exact ih s a

theorem State.tearWord_tears (s : State) (base : Nat) (be : BitVec 4) (w : Word) :
    lanesTorn s (s.tearWord base be w) base be w := by
  unfold State.tearWord
  dsimp only
  split_ifs
  · exact fun a => .inl ⟨rfl, rfl⟩
  · exact lanesTorn_of_stores (State.writeWord_stores { s with freeDraws := s.freeDraws + 1 } base be w).1
  · exact lanesTorn_foldl (s := { s with freeDraws := s.freeDraws + 1 }) _ lanes

theorem State.cutShort_of_read {b : ActiveBurst} {len : BitVec 4} (hb : s.memPort = some b) (hk : b.kind = .read len) :
    s.cutShort = s := by
  rw [State.cutShort, hb]
  simp only [hk]

theorem State.cutShort_of_write {b : ActiveBurst} {ws : List Word} (hb : s.memPort = some b) (hk : b.kind = .write ws)
    (hw : ws[b.done]? = some w) : s.cutShort = s.tearWord (byteAddr b.wordAddr) b.enables w := by
  rw [State.cutShort, hb]
  simp only [hk, hw]

/-- What is done to the pool before the parts take their reset values is what R110 allows. -/
theorem State.cutShort_tears (s : State) : tornWord s s.cutShort := by
  refine ⟨fun hb a => ?none, fun b len hb hk a => ?read, fun b ws w hb hk hw => ?write⟩
  case none =>
    rw [State.cutShort, hb]
    exact ⟨rfl, rfl⟩
  case read =>
    rw [State.cutShort_of_read hb hk]
    exact ⟨rfl, rfl⟩
  case write =>
    have htorn := s.tearWord_tears (byteAddr b.wordAddr) b.enables w
    rw [State.cutShort_of_write hb hk hw]
    refine ⟨fun a ha => ?_, fun i a hi ha => ?_⟩
    · rcases htorn a with hkept | ⟨i, hi, he, -⟩
      · exact hkept
      · exact absurd he (ha i hi)
    · rcases htorn a with hkept | ⟨j, -, he, htouched⟩
      · exact .inl hkept
      · obtain rfl : j = i := Fin.ext (by omega)
        exact .inr htouched

/-- Settles O7: both ways to part reset leave the pool of `cutShort`, taken in a state with the same pool and memory port. -/
theorem partResetTearsOneWordAtMost : Obligations.PartResetTearsOneWordAtMost := by
  refine ⟨fun s => ⟨_, rfl, State.cutShort_tears { s with nreset := true }⟩, fun s hc => ?_⟩
  refine ⟨_, congrArg Host.Outcome.next (State.commandWrite_of_commandable hc _ _), ?_⟩
  exact State.cutShort_tears { s with engine := some ⟨Cmd.partReset, s.cmdArg⟩ }

end Sys2Proof.Machine
end

section
/-! SUPPORT. What stands outside the controller, the pool's cells and the waiting commands: every operation but a word access
and part reset leaves both alone. -/

namespace Sys2Proof.Machine

variable {s t : State}

/-- What a state holds besides the controller: the pool's cells and the commands that wait. -/
def State.outside (s : State) : List Host.Cell × Cells Bool × List Instr := (s.poolData, s.poolParity, s.pending)

theorem outside_of_leaseFrame (h : leaseFrame s t) : t.outside = s.outside := by
  rw [h]
  rfl

theorem Turns.outside {e : EntryId} {x : Entry} {before : Port → PortRec} (h : Turns s t e x before) :
    t.outside = s.outside := outside_of_leaseFrame h.frame

theorem HostFrame.outside (h : HostFrame s t) : t.outside = s.outside := by
  rw [h.frame]
  rfl

theorem foldl_outside {α : Type} {op : State → α → State} (h : ∀ s a, (op s a).outside = s.outside) (l : List α) (s : State) :
    (l.foldl op s).outside = s.outside := by
  induction l generalizing s with
  | nil => rfl
  | cons a l ih => exact (ih (op s a)).trans (h s a)

/-- What is done under a condition, and nothing otherwise. -/
theorem ite_outside {c : Prop} [Decidable c] (h : t.outside = s.outside) : (if c then t else s).outside = s.outside := by
  split_ifs
  · exact h
  · rfl

theorem State.complete_outside (s : State) (code : BitVec 4) (r : CmdResult) : (s.complete code r).outside = s.outside := by
  rw [State.complete_eq]
  rfl

theorem State.offerFault_outside (s : State) (p : Port) (c : RefusalCode) (place : FaultPlace) :
    (s.offerFault p c place).outside = s.outside := by
  rw [State.offerFault_eq]
  rfl

/-! ## Entries and slots -/

theorem State.leave_outside (s : State) (e : EntryId) : (s.leave e).outside = s.outside :=
  (turns_of_leaves (s.leave_leaves e)).outside

theorem State.removeHolding_outside (s : State) (e : EntryId) (p : Port) : (s.removeHolding e p).outside = s.outside :=
  (turns_of_losesHolding (s.removeHolding_loses e p)).outside

theorem State.giveBack_outside (s : State) (p : Port) (k : SlotNo) (g : Grant) : (s.giveBack p k g).outside = s.outside :=
  (turns_of_givesBack (s.giveBack_gives p k g)).outside

theorem State.cancelSlot_outside (s : State) (p : Port) (k : SlotNo) (place : FaultPlace) :
    (s.cancelSlot p k place).outside = s.outside := by
  rcases s.cancelSlot_host p k place with h | ⟨d, g, h⟩
  · exact h.outside
  · exact h.frame.outside

theorem State.vacateSlot_outside (s : State) (p : Port) (k : SlotNo) : (s.vacateSlot p k).outside = s.outside := by
  unfold State.vacateSlot
  cases s.slot p k with
  | empty => rfl
  | waiting d => exact (hostFrame_withdraw s p k d).outside
  | granted d g => exact s.giveBack_outside p k g
  | denied d c => rfl

theorem State.vacateEntry_outside (s : State) (p : Port) (e : EntryId) : (s.vacateEntry p e).outside = s.outside := by
  cases hp : (s.entry e).holdingState p with
  | none =>
    unfold State.vacateEntry
    rw [hp]
  | some st => exact (s.vacateEntry_turns p e (by simp [hp])).outside

/-! ## The lease clock (R112 to R117) -/

theorem State.tickEntry_outside (s : State) (e : EntryId) : (s.tickEntry e).outside = s.outside :=
  outside_of_leaseFrame (tickTakenAt_frame (s.tickEntry_takes e))

theorem State.tickSlot_outside (s : State) (p : Port) (k : SlotNo) : (s.tickSlot p k).outside = s.outside :=
  outside_of_leaseFrame (tickTakenIn_frame (s.tickSlot_takes p k))

theorem State.handEntry_outside (s : State) (e : EntryId) : (s.handEntry e).outside = s.outside := by
  unfold State.handEntry
  split_ifs
  · rfl
  · rfl
  · exact s.tickEntry_outside e

theorem State.handSlot_outside (s : State) (p : Port) (k : SlotNo) : (s.handSlot p k).outside = s.outside := by
  rw [State.handSlot_eq]
  rfl

theorem State.handTick_outside (s : State) : s.handTick.outside = s.outside := by
  rw [State.handTick, foldl_outside fun s (c : ClaimId) => s.handSlot_outside c.port c.slot,
    foldl_outside State.handEntry_outside]

theorem State.tickUnderflow_outside (s : State) : s.tickUnderflow.outside = s.outside := by
  obtain ⟨htaken, -⟩ := s.settleTick_takes
  have hsettled := outside_of_leaseFrame (ticksTaken_frame htaken)
  unfold State.tickUnderflow
  generalize s.settleTick = u at hsettled ⊢
  exact (State.handTick_outside _).trans hsettled

theorem State.pulse_outside (s : State) : s.pulse.outside = s.outside := by
  have hdue : (if s.tickDue then s.tickUnderflow else s).outside = s.outside := ite_outside s.tickUnderflow_outside
  unfold State.pulse
  generalize (if s.tickDue then s.tickUnderflow else s) = u at hdue ⊢
  dsimp only
  split_ifs
  · exact hdue
  · exact hdue

theorem State.reloadPrescale_outside (s : State) : s.reloadPrescale.outside = s.outside := rfl

theorem State.leaseTick_outside (s : State) : s.leaseTick.outside = s.outside := by
  unfold State.leaseTick
  split_ifs
  · rfl
  · exact s.tickUnderflow_outside
  · rw [State.reloadPrescale_outside, State.tickUnderflow_outside]

/-! ## The holding queue (R85 to R87) -/

theorem State.applyRelease_outside (s : State) (p : Port) (h : Handle) : (s.applyRelease p h).outside = s.outside := by
  unfold State.applyRelease
  split_ifs
  · exact s.offerFault_outside p _ _
  · cases (s.entry h.entry).holdingState p with
    | none => rfl
    | some st =>
      cases st with
      | awarded => rfl
      | held | overdue | recalled => exact s.removeHolding_outside _ p

theorem State.applyRenew_outside (s : State) (p : Port) (h : Handle) (term : BitVec 16) :
    (s.applyRenew p h term).outside = s.outside := by
  unfold State.applyRenew
  dsimp only
  split_ifs
  · exact s.offerFault_outside p _ _
  · cases (s.entry h.entry).holdingState p with
    | none => exact s.offerFault_outside p _ _
    | some st =>
      cases st with
      | awarded | recalled => exact s.offerFault_outside p _ _
      | held | overdue => rfl

theorem State.applyHead_outside (s : State) (p : Port) : (s.applyHead p).outside = s.outside := by
  unfold State.applyHead
  cases (s.port p).holdQueue with
  | nil => rfl
  | cons i rest =>
    dsimp only
    cases i.kind with
    | release => exact s.applyRelease_outside p i.handle
    | renew => exact s.applyRenew_outside p i.handle i.term

/-! ## The stages of a close (R40, R128 to R132) -/

theorem State.enterStage_outside (s : State) (p : Port) (st : CloseStage) : (s.enterStage p st).outside = s.outside := rfl

theorem State.applyQueue_outside (s : State) (p : Port) : (s.applyQueue p).outside = s.outside :=
  foldl_outside (op := fun s (_ : HoldItem) => s.applyHead p) (fun s _ => s.applyHead_outside p) (s.port p).holdQueue s

theorem State.vacateSlots_outside (s : State) (p : Port) : (s.vacateSlots p).outside = s.outside :=
  foldl_outside (op := fun s k => s.vacateSlot p k) (fun s k => s.vacateSlot_outside p k) allSlots s

theorem foldl_vacateEntry_outside (p : Port) (l : List EntryId) (s : State) :
    (l.foldl (fun s e => s.vacateEntry p e) s).outside = s.outside :=
  foldl_outside (op := fun s e => s.vacateEntry p e) (fun s e => s.vacateEntry_outside p e) l s

theorem State.reopen_outside (s : State) : s.reopen.outside = s.outside := ite_outside rfl

theorem State.shutPort_outside (s : State) (p : Port) : (s.shutPort p).outside = s.outside := by
  have hdown : (s.shutDown p).outside = s.outside := by
    unfold State.shutDown
    split_ifs
    · exact State.complete_outside _ _ _
    · rfl
  rw [State.shutPort_eq]
  split_ifs
  · exact (State.reopen_outside _).trans hdown
  · exact hdown

/-! ## The command engine (R140 to R148) -/

theorem State.forceRecall_outside (s : State) (e : EntryId) : (s.forceRecall e).outside = s.outside :=
  (turns_of_becomes (s.forceRecall_becomes e)).outside

theorem State.cmdOpenPort_outside (s : State) (arg : Word) : (s.cmdOpenPort arg).outside = s.outside := by
  unfold State.cmdOpenPort
  split_ifs
  · exact s.complete_outside _ _
  · exact s.complete_outside _ _
  · exact State.complete_outside _ _ _

theorem State.cmdClosePort_outside (s : State) (arg : Word) : (s.cmdClosePort arg).outside = s.outside := by
  unfold State.cmdClosePort
  split_ifs
  · exact s.complete_outside _ _
  · exact s.complete_outside _ _
  · rfl

theorem State.cmdRecall_outside (s : State) (arg : Word) : (s.cmdRecall arg).outside = s.outside := by
  unfold State.cmdRecall
  dsimp only
  split_ifs
  · exact s.complete_outside _ _
  · exact s.complete_outside _ _
  · exact (State.complete_outside _ _ _).trans (s.forceRecall_outside _)

theorem State.cmdRevoke_outside (s : State) (arg : Word) : (s.cmdRevoke arg).outside = s.outside := by
  unfold State.cmdRevoke
  dsimp only
  split_ifs
  · exact s.complete_outside _ _
  · exact s.complete_outside _ _
  · have hrevoked := (turns_of_leaves (s.revoked_leaves (handleOf arg).entry)).outside
    rw [State.revoked, State.dissolve] at hrevoked
    exact hrevoked

theorem State.adopt_outside (s : State) (h : Handle) (p : Port) (k : SlotNo) : (s.adopt h p k).outside = s.outside := by
  rw [State.adopt_frame]
  rfl

theorem State.cmdAdopt_outside (s : State) (arg : Word) : (s.cmdAdopt arg).outside = s.outside := by
  unfold State.cmdAdopt
  dsimp only
  cases s.lowestEmpty (argPort arg) with
  | none => split_ifs <;> exact s.complete_outside _ _
  | some k =>
    split_ifs
    · exact s.complete_outside _ _
    · exact s.complete_outside _ _
    · exact s.complete_outside _ _
    · exact s.complete_outside _ _
    · exact s.adopt_outside _ _ k

theorem State.cmdRetire_outside (s : State) (arg : Word) : (s.cmdRetire arg).outside = s.outside := by
  unfold State.cmdRetire
  dsimp only
  split_ifs
  · exact s.complete_outside _ _
  · exact s.complete_outside _ _
  · exact s.leave_outside _

theorem State.cmdSetPool_outside (s : State) (arg : Word) : (s.cmdSetPool arg).outside = s.outside := by
  unfold State.cmdSetPool
  split_ifs
  · exact s.complete_outside _ _
  · exact s.complete_outside _ _
  · exact State.complete_outside _ _ _

/-- Every command but PART_RESET (R149). -/
theorem State.runCommand_outside {code : BitVec 4} (hcode : code ≠ Cmd.partReset) (s : State) (arg : Word) :
    (s.runCommand code arg).outside = s.outside := by
  unfold State.runCommand
  split_ifs
  · exact s.cmdOpenPort_outside arg
  · exact s.cmdClosePort_outside arg
  · exact s.cmdRecall_outside arg
  · exact s.cmdRevoke_outside arg
  · exact s.cmdAdopt_outside arg
  · exact s.cmdRetire_outside arg
  · exact s.cmdSetPool_outside arg
  · exact s.complete_outside _ _

/-- Every command keeps the commands that wait, PART_RESET among them (R149). -/
theorem State.runCommand_pending (code : BitVec 4) (s : State) (arg : Word) : (s.runCommand code arg).pending = s.pending := by
  by_cases hcode : code = Cmd.partReset
  · subst hcode
    rfl
  · exact congrArg (fun o => o.2.2) (State.runCommand_outside hcode s arg)

/-! ## The windows (R138, R161) -/

/-- A write of COMMAND is refused, or acted on by an IDLE engine (R138). -/
theorem State.startCommand_cases (s : State) (p : Port) (code : BitVec 4) (place : FaultPlace) (act : State → Word → State) :
    (s.startCommand p code place act).outside = s.outside ∨ (s.engine = none ∧
      s.startCommand p code place act = (act { s with engine := some ⟨code, s.cmdArg⟩ } s.cmdArg).done p) := by
  unfold State.startCommand
  cases s.engine with
  | some c => exact .inl (hostFrame_refuse s p _ _).outside
  | none => exact .inr ⟨rfl, rfl⟩

theorem State.startCommand_outside (s : State) (p : Port) (code : BitVec 4) (place : FaultPlace) {act : State → Word → State}
    (h : ∀ s arg, (act s arg).outside = s.outside) : (s.startCommand p code place act).outside = s.outside := by
  rcases s.startCommand_cases p code place act with hkept | ⟨-, hact⟩
  · exact hkept
  · rw [hact]
    exact h _ _

theorem State.writeReg_outside (s : State) (p : Port) (a : BitVec 22) (w : Word) {r : Reg} (hr : r ≠ .command) :
    (s.writeReg p a w r).outside = s.outside := by
  cases r with
  | command => exact absurd rfl hr
  | holdQueue => exact (hostFrame_postItem s p w).outside
  | slotDescB k => exact (hostFrame_sendClaim s p k w _).outside
  | slotCancel k => exact s.cancelSlot_outside p k _
  | noticePending | noticeEnable | faultClear | viewIndex | slotDescA | supViewIndex | cmdArg | collectTicks | graceTicks
  | orphanTicks | prescaleDiv | tickDiv | tickEnable | defaultTerm | termCap => rfl
  | _ => exact (hostFrame_refuse s p _ _).outside

theorem State.access_outside {p : Port} {len : BitVec 4} {a : BitVec 22} {write : Bool} {own : Reg → State → State}
    (h : ∀ r, (own r s).outside = s.outside) : (s.access p len a write own).outside = s.outside := by
  rcases State.access_host (s := s) (own := own) rfl with hframe | ⟨r, -, -, -, hown⟩
  · exact hframe.outside
  · exact hown ▸ h r

theorem State.writeAt_outside {p : Port} {len : BitVec 4} {r : Reg} {own : State → State} (h : (own s).outside = s.outside) :
    (s.writeAt p len r own).outside = s.outside := State.access_outside fun _ => h

theorem State.commandWrite_outside (s : State) (p : Port) (len code : BitVec 4) {act : State → Word → State}
    (h : ∀ s arg, (act s arg).outside = s.outside) : (s.commandWrite p len code act).outside = s.outside :=
  State.writeAt_outside (s.startCommand_outside p code _ h)

/-- A write reaches its word at an OPEN port that takes transactions; before that it is not taken, or refused (R121, R161). -/
theorem State.access_write_reaches (s : State) (p : Port) (len : BitVec 4) (a : BitVec 22) (own : Reg → State → State) :
    (s.access p len a true own).outside = s.outside ∨ (serves s p ∧ ∃ r, a = r.addr ∧
      (p ≠ 0 → inSupervisorWindow a = false) ∧ s.access p len a true own = own r s) := by
  by_cases hl : listens s p
  · by_cases hp : (s.port p).state = .opened
    · rcases State.access_host (s := s) (own := own) rfl with hframe | ⟨r, -, ha, hsup, hown⟩
      · exact .inl hframe.outside
      · exact .inr ⟨⟨hl, hp⟩, r, ha, hsup, hown.symm⟩
    · left
      rcases State.judgeAccess_closed hp len a true with hj | ⟨hw, -⟩
      · rw [State.access, s.transact_of_listens _ hl, hj]
        rfl
      · cases hw
  · left
    rw [State.access, s.transact_of_not_listens _ hl]

end Sys2Proof.Machine
end

section
/-! OBLIGATIONS. What every command leaves of the pool and of the commands that wait, and the commands that change nothing. -/

namespace Sys2Proof.Machine

variable {s t : State}

/-! ## The commands that reach the pool (R98, R105, R110, R149) -/

/-- The command carries out a word access or part reset: by NRESET, or by a code of PART_RESET that the engine accepts. -/
def reachesPool (c : Instr) (s : State) : Prop :=
  (∃ m, c = .poolWordReady m) ∨ c = .nreset ∨ commandable s ∧
    ((∃ len, c = .partReset 0 len) ∨ (∃ len, c = .unknownCommand 0 len 8) ∨
      ∃ len w, c = .registerWrite 0 len Reg.command.addr w)

theorem State.wordReady_pending (s : State) (m : MemAnswer) : (s.wordReady m).pending = s.pending := by
  unfold State.wordReady
  cases s.memPort with
  | none => rfl
  | some b =>
    obtain ⟨hframe, -⟩ := s.endWord_frame b m
    have hword : (s.endWord b m).1.pending = s.pending := by
      rw [hframe]
    dsimp only
    generalize s.endWord b m = w at hword ⊢
    split_ifs
    · exact hword
    · have hends := (w.1.endBurst_turns w.2).frame
      rw [hends]
      exact hword

/-- A write of COMMAND leaves the pool and the waiting commands alone, unless P0's IDLE engine takes it (R138). -/
theorem State.startCommand_reaches {p : Port} (hp : serves s p) (hsup : p ≠ 0 → inSupervisorWindow Reg.command.addr = false)
    (code : BitVec 4) (place : FaultPlace) {act : State → Word → State} (hact : ∀ s arg, (act s arg).pending = s.pending) :
    (s.startCommand p code place act).outside = s.outside ∨
    (commandable s ∧ p = 0 ∧ (s.startCommand p code place act).pending = s.pending) := by
  obtain rfl : p = 0 := by
    by_contra hne
    exact absurd (hsup hne) (by decide)
  rcases s.startCommand_cases 0 code place act with hkept | ⟨hidle, htaken⟩
  · exact .inl hkept
  · refine .inr ⟨⟨hp, hidle⟩, rfl, ?_⟩
    rw [htaken]
    exact hact _ _

theorem State.commandWrite_reaches (s : State) (p : Port) (len code : BitVec 4) {act : State → Word → State}
    (hact : ∀ s arg, (act s arg).pending = s.pending) :
    (s.commandWrite p len code act).outside = s.outside ∨
    (commandable s ∧ p = 0 ∧ (s.commandWrite p len code act).pending = s.pending) := by
  unfold State.commandWrite State.writeAt
  rcases s.access_write_reaches p len Reg.command.addr fun _ s => s.startCommand p code (controlPlace Reg.command.addr) act with
    hkept | ⟨hp, r, -, hsup, hown⟩
  · exact .inl hkept
  · rw [hown]
    exact State.startCommand_reaches hp hsup code _ hact

/-- A write at any word: only one at the address of COMMAND reaches the engine (R161, R163). -/
theorem State.registerWrite_reaches (s : State) (p : Port) (len : BitVec 4) (a : BitVec 22) (w : Word) :
    (s.access p len a true fun r s => s.writeReg p a w r).outside = s.outside ∨
    (commandable s ∧ p = 0 ∧ a = Reg.command.addr ∧
      (s.access p len a true fun r s => s.writeReg p a w r).pending = s.pending) := by
  rcases s.access_write_reaches p len a fun r s => s.writeReg p a w r with hkept | ⟨hp, r, rfl, hsup, hown⟩
  · exact .inl hkept
  · rw [hown]
    by_cases hr : r = .command
    · subst hr
      rcases State.startCommand_reaches hp hsup (commandCode w) (controlPlace Reg.command.addr)
        (State.runCommand_pending (commandCode w)) with hkept | ⟨hc, hp, hpending⟩
      · exact .inl hkept
      · exact .inr ⟨hc, hp, rfl, hpending⟩
    · exact .inl (s.writeReg_outside p _ w hr)

/-! ## Every command -/

/-- The state that the outcome answers, if it answers one, keeps the waiting commands, and the pool too unless the command
reaches it. -/
def OutcomeOutside (c : Instr) (s : State) (o : Host.Outcome State Fault Refusal) : Prop :=
  ∀ t, o = .next t → t.outside = s.outside ∨ (t.pending = s.pending ∧ reachesPool c s)

theorem outcomeOutside_kept {c : Instr} (h : t.outside = s.outside) : OutcomeOutside c s (.next t) := by
  rintro _ ⟨⟩
  exact .inl h

theorem outcomeOutside_reached {c : Instr} (h : t.pending = s.pending) (hc : reachesPool c s) :
    OutcomeOutside c s (.next t) := by
  rintro _ ⟨⟩
  exact .inr ⟨h, hc⟩

/-- A command that reaches the pool only if P0's IDLE engine takes it. -/
theorem outcomeOutside_commandable {c : Instr} {q : Prop}
    (h : t.outside = s.outside ∨ (commandable s ∧ q ∧ t.pending = s.pending)) (hc : commandable s → q → reachesPool c s) :
    OutcomeOutside c s (.next t) := by
  rcases h with hkept | ⟨hready, hq, hpending⟩
  · exact outcomeOutside_kept hkept
  · exact outcomeOutside_reached hpending (hc hready hq)

theorem exec_outside (c : Instr) (s : State) : OutcomeOutside c s (exec c s) := by
  cases c with
  | nreset => exact outcomeOutside_reached rfl (.inr (.inl rfl))
  | poolWordReady m => exact outcomeOutside_reached (s.wordReady_pending m) (.inl ⟨m, rfl⟩)
  | partReset p len =>
    exact outcomeOutside_commandable (s.commandWrite_reaches p len Cmd.partReset fun _ _ => rfl)
      fun hready hp => .inr (.inr ⟨hready, .inl ⟨len, by rw [hp]⟩⟩)
  | unknownCommand p len code =>
    by_cases hcode : code = Cmd.partReset
    · exact outcomeOutside_commandable (s.commandWrite_reaches p len code (State.runCommand_pending code))
        fun hready hp => .inr (.inr ⟨hready, .inr (.inl ⟨len, by rw [hp, hcode]; rfl⟩)⟩)
    · exact outcomeOutside_kept (s.commandWrite_outside p len code (State.runCommand_outside hcode))
  | registerWrite p len a w =>
    refine outcomeOutside_commandable (q := p = 0 ∧ a = Reg.command.addr) ?_
      fun hready ⟨hp, ha⟩ => .inr (.inr ⟨hready, .inr (.inr ⟨len, w, by rw [hp, ha]⟩)⟩)
    simpa only [and_assoc] using s.registerWrite_reaches p len a w
  | nresetRelease => exact outcomeOutside_kept (State.reopen_outside _)
  | portResetLineAssert p =>
    refine outcomeOutside_kept ?_
    cases (s.port p).state <;> rfl
  | portResetLineRelease p => exact outcomeOutside_kept (ite_outside (State.reopen_outside _))
  | prescaleUnderflow => exact outcomeOutside_kept (ite_outside s.pulse_outside)
  | leaseTick => exact outcomeOutside_kept s.leaseTick_outside
  | termEnd e p => exact outcomeOutside_kept (ite_outside (s.tickEntry_outside e))
  | graceEnd e p => exact outcomeOutside_kept (ite_outside (s.tickEntry_outside e))
  | lapse p k => exact outcomeOutside_kept (ite_outside (s.tickSlot_outside p k))
  | orphanExpiry e => exact outcomeOutside_kept (ite_outside (s.tickEntry_outside e))
  | poolWrite p a be ws =>
    unfold exec execPoolWrite
    dsimp only
    split_ifs
    · exact outcomeOutside_kept (hostFrame_transact (hostFrame_takeWrite s p a be ws)).outside
    · exact fun _ h => by cases h
  | poolRead p a be len => exact outcomeOutside_kept (hostFrame_transact (hostFrame_takeRead s p a be len)).outside
  | heldReadJudge p =>
    refine outcomeOutside_kept ?_
    cases (s.port p).read with
    | none => rfl
    | some r =>
      dsimp only
      cases r.stage with
      | accepted e => rfl
      | held => exact ite_outside (hostFrame_judgeRead s p _ _ _).outside
  | burstStart =>
    refine outcomeOutside_kept ?_
    unfold State.startBurst
    cases s.rotation.findSome? s.offered <;> split_ifs <;> rfl
  | evaluation => exact outcomeOutside_kept (ite_outside (hostFrame_walk { s with evalCalled := false }).outside)
  | slotDescB p len k w => exact outcomeOutside_kept (State.writeAt_outside (hostFrame_sendClaim s p k w _).outside)
  | slotCancel p len k w => exact outcomeOutside_kept (State.writeAt_outside (s.cancelSlot_outside p k _))
  | slotCollect p len k => exact outcomeOutside_kept (State.access_outside fun _ => (hostFrame_collectSlot s p k _).outside)
  | holdQueue p len w => exact outcomeOutside_kept (State.writeAt_outside (hostFrame_postItem s p w).outside)
  | release p => exact outcomeOutside_kept (ite_outside (s.applyHead_outside p))
  | renew p => exact outcomeOutside_kept (ite_outside (s.applyHead_outside p))
  | viewIndex | supViewIndex | noticePending | noticeEnable | faultClear | tickEnable =>
    exact outcomeOutside_kept (State.writeAt_outside rfl)
  | openPort p len => exact outcomeOutside_kept (s.commandWrite_outside p len _ State.cmdOpenPort_outside)
  | closePort p len => exact outcomeOutside_kept (s.commandWrite_outside p len _ State.cmdClosePort_outside)
  | recallLease p len => exact outcomeOutside_kept (s.commandWrite_outside p len _ State.cmdRecall_outside)
  | revokeLease p len => exact outcomeOutside_kept (s.commandWrite_outside p len _ State.cmdRevoke_outside)
  | adoptLease p len => exact outcomeOutside_kept (s.commandWrite_outside p len _ State.cmdAdopt_outside)
  | retireLease p len => exact outcomeOutside_kept (s.commandWrite_outside p len _ State.cmdRetire_outside)
  | setPool p len => exact outcomeOutside_kept (s.commandWrite_outside p len _ State.cmdSetPool_outside)
  | closeSecondStage p =>
    exact outcomeOutside_kept (ite_outside ((State.enterStage_outside _ p _).trans (s.applyQueue_outside p)))
  | closeThirdStage p =>
    exact outcomeOutside_kept (ite_outside ((State.enterStage_outside _ p _).trans (s.vacateSlots_outside p)))
  | closeFourthStage p =>
    exact outcomeOutside_kept
      (ite_outside ((State.enterStage_outside _ p _).trans (foldl_vacateEntry_outside p allEntries s)))
  | closeSixthStage p => exact outcomeOutside_kept (ite_outside (s.shutPort_outside p))
  | controlWindowRead p len a =>
    exact outcomeOutside_kept (State.access_outside fun r => (hostFrame_readReg s p a r).outside)

/-- A well-formed command has a next state: a pool write's list of words alone could say otherwise (R94). -/
theorem exec_next {c : Instr} (h : c.wellFormed = true) (s : State) : ∃ t, exec c s = .next t := by
  cases c with
  | poolWrite p a be ws =>
    have hlength : 1 ≤ ws.length ∧ ws.length ≤ 16 := by
      simpa only [Instr.wellFormed, Bool.and_eq_true, decide_eq_true_eq] using h
    exact ⟨_, if_pos hlength⟩
  | _ => exact ⟨_, rfl⟩

/-- Settles O2: the next state by `exec_next`, its queue by `exec_outside`. -/
theorem everyCommandAnswersNext : Obligations.EveryCommandAnswersNext := by
  refine ⟨fun c s hc => ?_, fun p a be ws s hlength => if_neg hlength⟩
  obtain ⟨t, ht⟩ := exec_next hc s
  refine ⟨t, ht, ?_⟩
  rcases exec_outside c s t ht with hkept | ⟨hpending, -⟩
  · exact congrArg (fun o => o.2.2) hkept
  · exact hpending

/-- Settles O23: the premises leave out the commands that reach the pool. -/
theorem poolChangesAtMemoryPortAlone : Obligations.PoolChangesAtMemoryPortAlone := by
  intro c s t ht hready hreset hcommand
  rcases exec_outside c s t ht with hkept | ⟨-, ⟨m, hm⟩ | hn | ⟨⟨⟨⟨hnreset, -, -⟩, hopen⟩, hidle⟩, hwrites⟩⟩
  · exact ⟨congrArg (fun o => o.1) hkept, congrArg (fun o => o.2.1) hkept⟩
  · exact absurd hm (hready m)
  · exact absurd hn hreset
  · obtain ⟨hpart, hunknown, hregister⟩ := hcommand hnreset hopen hidle
    rcases hwrites with ⟨len, h⟩ | ⟨len, h⟩ | ⟨len, w, h⟩
    · exact absurd h (hpart len)
    · exact absurd h (hunknown len)
    · exact absurd h (hregister len w)

/-! ## Commands that change nothing (R95, R123, R159) -/

theorem State.access_of_not_listens {p : Port} (h : ¬listens s p) (len : BitVec 4) (a : BitVec 22) (write : Bool)
    (own : Reg → State → State) : s.access p len a write own = s := s.transact_of_not_listens _ h

/-- A transaction presented at a port that takes none is not taken (R95, R123, R159). -/
theorem exec_of_not_listens {c : Instr} {p : Port} (hc : c.presenter = some p) (hw : c.wellFormed = true)
    (h : ¬listens s p) : exec c s = .next s := by
  cases c with
  | poolWrite q a be ws =>
    obtain rfl := Option.some.inj hc
    have hlength : 1 ≤ ws.length ∧ ws.length ≤ 16 := by
      simpa only [Instr.wellFormed, Bool.and_eq_true, decide_eq_true_eq] using hw
    rw [exec, execPoolWrite, if_pos hlength, s.transact_of_not_listens _ h]
  | poolRead q a be len =>
    obtain rfl := Option.some.inj hc
    rw [exec, execPoolRead, s.transact_of_not_listens _ h]
  | slotDescB | slotCancel | slotCollect | holdQueue | viewIndex | supViewIndex | noticePending | noticeEnable | faultClear
  | tickEnable | registerWrite | openPort | closePort | recallLease | revokeLease | adoptLease | retireLease | setPool
  | partReset | unknownCommand | controlWindowRead =>
    obtain rfl := Option.some.inj hc
    exact congrArg Host.Outcome.next (State.access_of_not_listens h _ _ _ _)
  | _ => cases hc

/-- Nothing is done where the condition of an event fails. -/
theorem next_ite_not {c : Bool} (h : c = false) (t : State) :
    (.next (if c then t else s) : Host.Outcome State Fault Refusal) = .next s := by
  rw [h]
  rfl

theorem State.startBurst_of_none (h : s.memPort ≠ none ∨ ∀ q, s.offered q = none) : s.startBurst = s := by
  unfold State.startBurst
  by_cases hbusy : s.memPort = none
  · have hnone := h.resolve_left (not_not.2 hbusy)
    rw [if_neg (by simp [hbusy]), List.findSome?_eq_none_iff.2 fun q _ => hnone q]
  · rw [if_pos (Option.isSome_iff_ne_none.2 hbusy)]

/-- Settles O15: each event by the condition that it asks. -/
theorem eventsNotDueChangeNothing : Obligations.EventsNotDueChangeNothing := by
  refine ⟨fun c p s => exec_of_not_listens, fun s e p k m => ⟨fun h => ?tick, fun h => ?lapse, fun h => ?evaluation,
    fun h => ?release, fun h => ?renew, fun h => ?word, fun h => ?burst, fun h => ?held, fun h => ?second, fun h => ?third,
    fun h => ?fourth, fun h => ?sixth⟩⟩
  case tick =>
    have hwaits : s.tickWaits e = false := by
      rcases h with h | h <;> simp [State.tickWaits, h]
    have hnone : ∀ b, (s.tickWaits e && b) = false := fun b => by rw [hwaits, Bool.false_and]
    exact ⟨next_ite_not (hnone _) _, next_ite_not (hnone _) _, next_ite_not (hnone _) _⟩
  case lapse =>
    refine next_ite_not ?_ _
    rcases h with h | h <;> simp [h]
  case evaluation => exact next_ite_not h _
  case release => exact next_ite_not (beq_eq_false_iff_ne.2 h) _
  case renew => exact next_ite_not (beq_eq_false_iff_ne.2 h) _
  case word => exact congrArg Host.Outcome.next (by rw [State.wordReady, h])
  case burst => exact congrArg Host.Outcome.next (State.startBurst_of_none h)
  case held =>
    rw [exec, execHeldReadJudge]
    cases hr : (s.port p).read with
    | none => rfl
    | some r =>
      have hw := h.resolve_left (by simp [hr])
      cases hst : r.stage with
      | accepted e => simp only [hst]
      | held => simp [hst, hw]
  case second => exact next_ite_not (beq_eq_false_iff_ne.2 h) _
  case third => exact next_ite_not (beq_eq_false_iff_ne.2 h) _
  case fourth => exact next_ite_not (beq_eq_false_iff_ne.2 h) _
  case sixth =>
    refine next_ite_not ?_ _
    rcases h with h | h | h
    · rw [beq_eq_false_iff_ne.2 h, Bool.false_and]
    · simp [State.drained, h]
    · simp [State.drained, Option.isSome_iff_ne_none.2 h]

end Sys2Proof.Machine
end

section
/-! OBLIGATIONS. The lease clock: one cycle of SYSCLK on the empty queue, the time to the next lease tick, and the prescale
underflow. -/

namespace Sys2Proof.Machine

variable {s t : State}

/-! ## The tick stage's underflow (R112, R116, R117) -/

theorem State.clockRuns_iff : s.clockRuns = true ↔ clockOn s := by
  simp [State.clockRuns, clockOn]

/-- The taking of waiting ticks leaves the clock alone. -/
theorem State.settleTick_frame (s : State) : leaseFrame s s.settleTick := ticksTaken_frame s.settleTick_takes.1

/-- The underflow of the tick stage but for what the tick does to the tables and ports. -/
theorem State.tickUnderflow_frame (s : State) :
    leaseFrame { s with tickCounter := s.tickDiv, tickDue := false, leaseTime := s.leaseTime + 1 } s.tickUnderflow := by
  have hsettled := s.settleTick_takes.2
  have hframe := s.settleTick_frame
  unfold State.tickUnderflow
  generalize s.settleTick = u at hsettled hframe ⊢
  obtain ⟨hhanded, -⟩ := State.handTick_counts
    (s := { u with tickCounter := u.tickDiv, tickDue := false, leaseTime := u.leaseTime + 1 }) hsettled.1
  unfold leaseFrame at hframe ⊢
  rw [hhanded, hframe]

section
variable (s)

@[simp] theorem State.tickUnderflow_nreset : s.tickUnderflow.nreset = s.nreset := by rw [s.tickUnderflow_frame]

@[simp] theorem State.tickUnderflow_tickEnable : s.tickUnderflow.tickEnable = s.tickEnable := by rw [s.tickUnderflow_frame]

@[simp] theorem State.tickUnderflow_pending : s.tickUnderflow.pending = s.pending := by rw [s.tickUnderflow_frame]

@[simp] theorem State.tickUnderflow_prescaleCounter : s.tickUnderflow.prescaleCounter = s.prescaleCounter := by
  rw [s.tickUnderflow_frame]

@[simp] theorem State.tickUnderflow_prescaleDiv : s.tickUnderflow.prescaleDiv = s.prescaleDiv := by rw [s.tickUnderflow_frame]

@[simp] theorem State.tickUnderflow_tickCounter : s.tickUnderflow.tickCounter = s.tickDiv := by rw [s.tickUnderflow_frame]

@[simp] theorem State.tickUnderflow_tickDiv : s.tickUnderflow.tickDiv = s.tickDiv := by rw [s.tickUnderflow_frame]

@[simp] theorem State.tickUnderflow_tickDue : s.tickUnderflow.tickDue = false := by rw [s.tickUnderflow_frame]

@[simp] theorem State.tickUnderflow_leaseTime : s.tickUnderflow.leaseTime = s.leaseTime + 1 := by rw [s.tickUnderflow_frame]

end

theorem clockOn_tickUnderflow (h : clockOn s) : clockOn s.tickUnderflow := by
  rwa [clockOn, s.tickUnderflow_nreset, s.tickUnderflow_tickEnable]

/-! ## PRESCALE_UNDERFLOW (R112 to R114) -/

theorem State.prescaleUnderflow_of_off (h : ¬clockOn s) : s.prescaleUnderflow = s :=
  if_neg (mt State.clockRuns_iff.1 h)

theorem State.pulse_of_notDue (hdue : s.tickDue = false) :
    s.pulse = if s.tickCounter = 0 then { s with tickDue := true } else { s with tickCounter := s.tickCounter - 1 } := by
  simp only [State.pulse, hdue, Bool.false_eq_true, if_false]

/-- The pulse lowers a tick counter that is not zero. -/
theorem State.prescaleUnderflow_counts (hon : clockOn s) (hdue : s.tickDue = false) (hcount : s.tickCounter ≠ 0) :
    s.prescaleUnderflow = { s with prescaleCounter := s.prescaleDiv, tickCounter := s.tickCounter - 1 } := by
  rw [State.prescaleUnderflow, if_pos (State.clockRuns_iff.2 hon), State.pulse_of_notDue hdue, if_neg hcount,
    State.reloadPrescale]

/-- The pulse at a tick counter of zero makes its underflow due. -/
theorem State.prescaleUnderflow_makesDue (hon : clockOn s) (hdue : s.tickDue = false) (hzero : s.tickCounter = 0) :
    s.prescaleUnderflow = { s with prescaleCounter := s.prescaleDiv, tickDue := true } := by
  rw [State.prescaleUnderflow, if_pos (State.clockRuns_iff.2 hon), State.pulse_of_notDue hdue, if_pos hzero,
    State.reloadPrescale]

/-- An underflow of the tick stage still due is taken first. -/
theorem State.prescaleUnderflow_of_due (hon : clockOn s) (hdue : s.tickDue = true) :
    s.prescaleUnderflow = s.tickUnderflow.prescaleUnderflow := by
  have hpulse : s.pulse = s.tickUnderflow.pulse := by simp [State.pulse, hdue]
  rw [State.prescaleUnderflow, State.prescaleUnderflow, if_pos (State.clockRuns_iff.2 hon),
    if_pos (State.clockRuns_iff.2 (clockOn_tickUnderflow hon)), hpulse]

theorem exec_leaseTick_of_due (hon : clockOn s) (hdue : s.tickDue = true) : exec .leaseTick s = .next s.tickUnderflow := by
  rw [exec_leaseTick hon, if_pos hdue]

theorem exec_leaseTick_of_notDue (hon : clockOn s) (hdue : s.tickDue = false) :
    exec .leaseTick s = .next s.tickUnderflow.reloadPrescale := by
  rw [exec_leaseTick hon, if_neg (by simp [hdue])]

/-- Settles O9: the pulse where no underflow is due, and an underflow still due taken first. -/
theorem prescaleUnderflowPulses : Obligations.PrescaleUnderflowPulses := by
  refine fun s => ⟨fun hoff => ?stopped, fun hon hdue hcount => ?falls, fun hon hdue hzero => ?underflows,
    fun hon hdue => ?late⟩
  case stopped => exact congrArg Host.Outcome.next (State.prescaleUnderflow_of_off hoff)
  case falls => exact congrArg Host.Outcome.next (State.prescaleUnderflow_counts hon hdue hcount)
  case underflows => exact congrArg Host.Outcome.next (State.prescaleUnderflow_makesDue hon hdue hzero)
  case late =>
    have hfirst := State.prescaleUnderflow_of_due hon hdue
    have hon' := clockOn_tickUnderflow hon
    refine ⟨⟨_, exec_leaseTick_of_due hon hdue, s.tickUnderflow_tickDue, hon', congrArg Host.Outcome.next hfirst⟩,
      _, congrArg Host.Outcome.next hfirst, ?_⟩
    have hreloaded := s.tickUnderflow_tickCounter
    by_cases hdiv : s.tickDiv = 0
    · rw [State.prescaleUnderflow_makesDue hon' s.tickUnderflow_tickDue (hreloaded.trans hdiv)]
      simp [hdiv]
    · rw [State.prescaleUnderflow_counts hon' s.tickUnderflow_tickDue (hreloaded ▸ hdiv), if_neg hdiv,
        decide_eq_false hdiv]
      simp

/-! ## One cycle of SYSCLK (R112) -/

theorem State.clockCycle_of_off (h : ¬clockOn s) : s.clockCycle = s := by
  rw [State.clockCycle, if_pos (by simpa using mt State.clockRuns_iff.1 h)]

theorem State.clockCycle_of_on (h : clockOn s) :
    s.clockCycle =
      if s.prescaleCounter ≠ 0 then { s with prescaleCounter := s.prescaleCounter - 1 }
      else
        let t := if s.tickDue then s.leaseTick else s
        if t.tickCounter = 0 then t.leaseTick.settleTick else t.prescaleUnderflow := by
  rw [State.clockCycle, if_neg (by simp [State.clockRuns_iff.2 h])]

theorem State.leaseTick_of_due (hon : clockOn s) (hdue : s.tickDue = true) : s.leaseTick = s.tickUnderflow :=
  Host.Outcome.next.inj (exec_leaseTick_of_due hon hdue)

theorem State.leaseTick_of_notDue (hon : clockOn s) (hdue : s.tickDue = false) :
    s.leaseTick = s.tickUnderflow.reloadPrescale :=
  Host.Outcome.next.inj (exec_leaseTick_of_notDue hon hdue)

/-- A cycle at which the prescale stage underflows sends its pulse on; at zero the tick is taken whole. -/
theorem State.clockCycle_of_underflow (hon : clockOn s) (hpre : s.prescaleCounter = 0) (hdue : s.tickDue = false) :
    s.clockCycle =
      if s.tickCounter = 0 then s.tickUnderflow.reloadPrescale.settleTick
      else { s with prescaleCounter := s.prescaleDiv, tickCounter := s.tickCounter - 1 } := by
  have hcycle : s.clockCycle = if s.tickCounter = 0 then s.leaseTick.settleTick else s.prescaleUnderflow := by
    rw [State.clockCycle_of_on hon, if_neg (not_not.2 hpre)]
    simp [hdue]
  rw [hcycle]
  split_ifs with hzero
  · rw [State.leaseTick_of_notDue hon hdue]
  · exact State.prescaleUnderflow_counts hon hdue hzero

/-- An underflow of the tick stage still due is taken first, and the cycle goes on from there. -/
theorem State.clockCycle_of_due (hon : clockOn s) (hpre : s.prescaleCounter = 0) (hdue : s.tickDue = true) :
    s.clockCycle = s.tickUnderflow.clockCycle := by
  rw [State.clockCycle_of_on hon, State.clockCycle_of_on (clockOn_tickUnderflow hon)]
  simp [hpre, hdue, State.leaseTick_of_due hon hdue]

/-- What the cycle of a lease tick leaves of the clock. -/
theorem State.settledTick_frame (s : State) :
    leaseFrame { s with prescaleCounter := s.prescaleDiv, tickCounter := s.tickDiv, tickDue := false,
                        leaseTime := s.leaseTime + 1 }
      s.tickUnderflow.reloadPrescale.settleTick := by
  have hframe := s.tickUnderflow.reloadPrescale.settleTick_frame
  unfold leaseFrame at hframe ⊢
  rw [hframe, State.reloadPrescale, s.tickUnderflow_frame]

theorem step_of_empty (h : s.pending = []) : step s = .next s.clockCycle := by
  rw [step, h]

/-- Settles O3: the cycle by the two counters; a tick that it produces is settled by `settleTick_takes`. -/
theorem emptyQueueCountsOneCycle : Obligations.EmptyQueueCountsOneCycle := by
  intro s hempty
  rw [step_of_empty hempty]
  refine ⟨fun hoff => ?stopped, fun hon hpre => ?prescale, fun hon hpre hdue hcount => ?pulse,
    fun hon hpre hdue hzero => ?tick, fun hon hpre hdue => ?late⟩
  case stopped => rw [State.clockCycle_of_off hoff]
  case prescale => rw [State.clockCycle_of_on hon, if_pos hpre]
  case pulse => rw [State.clockCycle_of_underflow hon hpre hdue, if_neg hcount]
  case tick =>
    obtain ⟨htaken, hsettled⟩ := s.tickUnderflow.reloadPrescale.settleTick_takes
    have hframe := s.settledTick_frame
    refine ⟨_, _, exec_leaseTick_of_notDue hon hdue, ?_, htaken, hsettled, ?_⟩
    · rw [State.clockCycle_of_underflow hon hpre hdue, if_pos hzero]
    · rw [hframe]
      exact ⟨rfl, rfl, rfl, rfl⟩
  case late =>
    have hempty' : s.tickUnderflow.pending = [] := s.tickUnderflow_pending.trans hempty
    exact ⟨_, exec_leaseTick_of_due hon hdue, hempty', s.tickUnderflow_tickDue, s.tickUnderflow_prescaleCounter.trans hpre,
      clockOn_tickUnderflow hon, by rw [step_of_empty hempty', State.clockCycle_of_due hon hpre hdue]⟩

/-! ## The cycles up to a lease tick (R112) -/

/-- The cycles of SYSCLK up to and with the next underflow of the tick stage, by the two counters. -/
def State.cyclesLeft (s : State) : Nat :=
  s.tickCounter.toNat * (s.prescaleDiv.toNat + 1) + s.prescaleCounter.toNat + 1

/-- The two states agree in everything but the counters of the clock. -/
abbrev countersBut (s t : State) : Prop :=
  t = { s with prescaleCounter := t.prescaleCounter, tickCounter := t.tickCounter }

theorem toNat_sub_one_add_one {w : Nat} {x : BitVec w} (h : x ≠ 0) : (x - 1).toNat + 1 = x.toNat := by
  have hpos : x.toNat ≠ 0 := fun hx => h (BitVec.eq_of_toNat_eq hx)
  have hlt : 1 < 2 ^ w := (Nat.one_le_iff_ne_zero.2 hpos).trans_lt x.isLt
  have hone : (1 : BitVec w).toNat = 1 := Nat.mod_eq_of_lt hlt
  have hle : 1 ≤ x := by rw [BitVec.le_def, hone]; omega
  rw [BitVec.toNat_sub_of_le hle, hone]
  omega

/-- A cycle with more than one left moves the counters alone, and one less is left. -/
theorem clockCycle_countsDown (hon : clockOn s) (hdue : s.tickDue = false) (h : 1 < s.cyclesLeft) :
    countersBut s s.clockCycle ∧ s.clockCycle.cyclesLeft + 1 = s.cyclesLeft := by
  by_cases hpre : s.prescaleCounter = 0
  · have hcount : s.tickCounter ≠ 0 := fun hzero => by simp [State.cyclesLeft, hpre, hzero] at h
    rw [State.clockCycle_of_underflow hon hpre hdue, if_neg hcount]
    refine ⟨rfl, ?_⟩
    simp only [State.cyclesLeft, hpre, ← toNat_sub_one_add_one hcount]
    simp
    ring
  · rw [State.clockCycle_of_on hon, if_pos hpre]
    refine ⟨rfl, ?_⟩
    simp only [State.cyclesLeft, ← toNat_sub_one_add_one hpre]
    ring

theorem run_succ_of_next (M : Host.Core) {s t : M.State} (h : M.step s = .next t) (n : Nat) :
    M.run (n + 1) s = M.run n t := by
  rw [Host.Core.run, h]

theorem cycles_succ (h : step s = .next t) (n : Nat) : cycles (n + 1) s = cycles n t := run_succ_of_next core h n

/-- As long as cycles are left, the counters alone move, and the cycles after them go on from there. -/
theorem cycles_countDown (m : Nat) (s : State) (hempty : s.pending = []) (hon : clockOn s) (hdue : s.tickDue = false)
    (hm : m < s.cyclesLeft) :
    ∃ u, countersBut s u ∧ u.cyclesLeft + m = s.cyclesLeft ∧ ∀ k, cycles (k + m) s = cycles k u := by
  induction m generalizing s with
  | zero => exact ⟨s, rfl, rfl, fun _ => rfl⟩
  | succ m ih =>
    obtain ⟨hmoved, hleft⟩ := clockCycle_countsDown hon hdue (by omega)
    have hstep := step_of_empty hempty
    generalize s.clockCycle = t at hmoved hleft hstep
    obtain ⟨u, hmoved', hleft', hruns⟩ := ih t (by rw [hmoved]; exact hempty) (by rw [hmoved]; exact hon)
      (by rw [hmoved]; exact hdue) (by omega)
    refine ⟨u, ?_, by omega, fun k => (cycles_succ hstep (k + m)).trans (hruns k)⟩
    unfold countersBut at hmoved hmoved' ⊢
    rw [hmoved', hmoved]

/-- With one cycle left both counters are at zero. -/
theorem State.counters_of_cyclesLeft (h : s.cyclesLeft = 1) : s.prescaleCounter = 0 ∧ s.tickCounter = 0 := by
  have hsum : s.tickCounter.toNat * (s.prescaleDiv.toNat + 1) + s.prescaleCounter.toNat = 0 := Nat.succ.inj h
  obtain ⟨hticks, hpre⟩ := Nat.add_eq_zero_iff.1 hsum
  exact ⟨BitVec.eq_of_toNat_eq hpre, BitVec.eq_of_toNat_eq ((Nat.mul_eq_zero.1 hticks).resolve_right (Nat.succ_ne_zero _))⟩

/-- Settles O4: all but one of the cycles left move the counters alone (`cycles_countDown`), and the last one is the tick. -/
theorem leaseTickInterval : Obligations.LeaseTickInterval := by
  rintro s n hempty hon hdue (hn : n = s.cyclesLeft)
  refine ⟨fun m hm => ?before, ?tick, fun hpre htick => ?fresh⟩
  case before =>
    obtain ⟨u, hmoved, -, hruns⟩ := cycles_countDown m s hempty hon hdue (hn ▸ hm)
    exact ⟨u, (congrArg (cycles · s) (Nat.zero_add m).symm).trans (hruns 0), hmoved⟩
  case tick =>
    obtain ⟨m, rfl⟩ : ∃ m, n = 1 + m := ⟨s.prescaleCounter.toNat + s.tickCounter.toNat * (s.prescaleDiv.toNat + 1), by
      rw [hn, State.cyclesLeft]; ring⟩
    obtain ⟨u, hmoved, hleft, hruns⟩ := cycles_countDown m s hempty hon hdue (by omega)
    obtain ⟨hpre, hzero⟩ := State.counters_of_cyclesLeft (s := u) (by omega)
    have hlast : u.clockCycle = u.tickUnderflow.reloadPrescale.settleTick := by
      rw [State.clockCycle_of_underflow (by rw [hmoved]; exact hon) hpre (by rw [hmoved]; exact hdue), if_pos hzero]
    have hframe := u.settledTick_frame
    refine ⟨u.clockCycle, (hruns 1).trans (cycles_succ (step_of_empty (by rw [hmoved]; exact hempty)) 0), ?_⟩
    rw [hlast, hframe, hmoved]
    exact ⟨rfl, rfl, rfl, rfl, rfl, hon, rfl, hempty⟩
  case fresh =>
    rw [hn, State.cyclesLeft, hpre, htick]
    ring

end Sys2Proof.Machine
end

section
/-! OBLIGATIONS. The judgments of a window transaction that is refused, in the order of Table 41. -/

namespace Sys2Proof.Machine

variable {s : State} {p : Port} {len : BitVec 4} {a : BitVec 22}

/-! ## Each refusal of Table 41 (R121, R136, R161) -/

theorem inSupervisorWindow_iff : inSupervisorWindow a = true ↔ inSupervisor a := by
  rw [inSupervisorWindow, Bool.and_eq_true, decide_eq_true_iff, decide_eq_true_iff]
  rfl

theorem State.judgeAccess_supervisorOnly (ho : (s.port p).state = .opened) (hp : p ≠ 0) (ha : inSupervisor a)
    (write : Bool) : s.judgeAccess p len a write = .error .supervisorOnly := by
  unfold State.judgeAccess
  dsimp only
  rw [if_neg fun h => h.1 ho, if_pos ⟨hp, inSupervisorWindow_iff.2 ha⟩]

/-- A transaction that passed the first two judgments stands before the third. -/
theorem State.judgeAccess_of_reached (ho : (s.port p).state = .opened) (hp : p = 0 ∨ ¬inSupervisor a) (write : Bool) :
    s.judgeAccess p len a write =
      if len ≠ 0 then .error .align
      else (rowAt a).elim (.error .unmapped) fun r =>
        if (if write then r.writable else r.readable) then .ok r.reg else .error .unmapped := by
  have hsup : ¬(p ≠ 0 ∧ inSupervisorWindow a = true) := fun ⟨hne, ha⟩ => hp.elim hne (absurd (inSupervisorWindow_iff.1 ha))
  unfold State.judgeAccess
  dsimp only
  rw [if_neg fun h => h.1 ho, if_neg hsup]
  cases rowAt a with
  | none => rfl
  | some r => rfl

theorem State.judgeAccess_align (ho : (s.port p).state = .opened) (hp : p = 0 ∨ ¬inSupervisor a) (hl : len ≠ 0)
    (write : Bool) : s.judgeAccess p len a write = .error .align := by
  rw [State.judgeAccess_of_reached ho hp, if_pos hl]

theorem State.judgeAccess_noWord (ho : (s.port p).state = .opened) (hp : p = 0 ∨ ¬inSupervisor a) (hl : len = 0)
    (hm : rowAt a = none) (write : Bool) : s.judgeAccess p len a write = .error .unmapped := by
  rw [State.judgeAccess_of_reached ho hp, if_neg (not_not.2 hl), hm, Option.elim_none]

theorem State.judgeAccess_notPermitted (ho : (s.port p).state = .opened) (hp : p = 0 ∨ ¬inSupervisor a) (hl : len = 0)
    {row : MapRow} (hm : rowAt a = some row) (write : Bool) (hr : (if write then row.writable else row.readable) = false) :
    s.judgeAccess p len a write = .error .unmapped := by
  rw [State.judgeAccess_of_reached ho hp, if_neg (not_not.2 hl), hm, Option.elim_some, hr, if_neg Bool.false_ne_true]

/-! ## The refusals carried out (R157, R161) -/

/-- A refusal other than PORT_CLOSED is recorded with the address. -/
theorem State.access_of_error (hl : listens s p) {write : Bool} {c : RefusalCode} (hc : c ≠ .portClosed)
    (hj : s.judgeAccess p len a write = .error c) (own : Reg → State → State) :
    s.access p len a write own = windowRefused s p a c := by
  rw [State.access, s.transact_of_listens _ hl, hj, windowRefused, ← State.refuse_eq]
  cases c with
  | portClosed => exact absurd rfl hc
  | _ => rfl

/-- A refusal that asks nothing of the direction meets writes and reads alike. -/
theorem exec_window_refused (hl : listens s p) {c : RefusalCode} (hc : c ≠ .portClosed)
    (hj : ∀ write, s.judgeAccess p len a write = .error c) (w : Word) :
    exec (.registerWrite p len a w) s = .next (windowRefused s p a c) ∧
    exec (.controlWindowRead p len a) s = .next (windowRefused s p a c) :=
  ⟨congrArg Host.Outcome.next (State.access_of_error hl hc (hj true) _),
    congrArg Host.Outcome.next (State.access_of_error hl hc (hj false) _)⟩

/-- A port that is not OPEN is refused with PORT_CLOSED unless it reads PORT_STATUS as a single word (R121). -/
theorem State.access_portClosed (hl : listens s p) (hp : (s.port p).state ≠ .opened) {write : Bool}
    (hs : write = true ∨ len ≠ 0 ∨ a ≠ Reg.portStatus.addr) (own : Reg → State → State) :
    s.access p len a write own = s.setPort p (answered (s.port p) (.refuse .portClosed)) := by
  rcases State.judgeAccess_closed hp len a write with hj | ⟨rfl, rfl, rfl, -⟩
  · rw [State.access, s.transact_of_listens _ hl, hj]
    exact s.refuseClosed_eq p
  · simp at hs

/-- A single-word read of PORT_STATUS is answered in every port state (R122). -/
theorem exec_portStatus_read (hl : listens s p) :
    exec (.controlWindowRead p 0 Reg.portStatus.addr) s =
      .next (s.setPort p (answered (s.port p) (.done [(s.port p).statusByte.setWidth 32]))) := by
  have hword : s.regWord p .portStatus = (s.port p).statusByte.setWidth 32 := BitVec.shiftLeft_zero _
  rw [exec, execControlWindowRead, State.access, s.transact_of_listens _ hl, s.judgeAccess_status p, ← hword]
  rfl

/-- Settles O38: the judgments of Table 41 in their order, each by its own equation of `judgeAccess`. -/
theorem windowAccessJudged : Obligations.WindowAccessJudged := by
  rintro p len a w s r hl rfl
  refine ⟨fun hp => ⟨?closed_write, fun hs => ?closed_read, exec_portStatus_read hl⟩, fun ho hp ha => ?supervisorOnly,
    fun ho hp hlen => ?align, fun ho hp hlen hm => ?noWord, fun row ho hp hlen hm => ⟨fun hr => ?readOnly, fun hr => ?writeOnly⟩⟩
  case closed_write => exact congrArg Host.Outcome.next (State.access_portClosed hl hp (.inl rfl) _)
  case closed_read => exact congrArg Host.Outcome.next (State.access_portClosed hl hp (.inr hs) _)
  case supervisorOnly => exact exec_window_refused hl (by decide) (State.judgeAccess_supervisorOnly ho hp ha) w
  case align => exact exec_window_refused hl (by decide) (State.judgeAccess_align ho hp hlen) w
  case noWord => exact exec_window_refused hl (by decide) (State.judgeAccess_noWord ho hp hlen hm) w
  case readOnly =>
    have hj := State.judgeAccess_notPermitted ho hp hlen hm true hr
    exact congrArg Host.Outcome.next (State.access_of_error hl (by decide) hj _)
  case writeOnly =>
    have hj := State.judgeAccess_notPermitted ho hp hlen hm false hr
    exact congrArg Host.Outcome.next (State.access_of_error hl (by decide) hj _)

end Sys2Proof.Machine
end

section
/-! OBLIGATIONS. Opening and closing ports: part reset, the reset lines, the sixth stage of a close, and the commands on ports
and on the pool's size. -/

namespace Sys2Proof.Machine

variable {s : State}

/-! ## Part reset (R126, R135, R149) -/

/-- A port after part reset with NRESET asserted: CLOSED, whatever its line. -/
theorem afterReset_asserted (r : PortRec) (p : Port) :
    r.afterReset p true = { PortRec.cleared with lineHeld := r.lineHeld } := by
  rw [PortRec.afterReset, if_neg fun h => Bool.noConfusion h.2.1]
  rfl

/-- A port after part reset with NRESET and P0's line released: P0 is OPEN, the others CLOSED. -/
theorem afterReset_released {r : PortRec} {p : Port} (h : p = 0 → r.lineHeld = false) :
    r.afterReset p false =
      { PortRec.cleared with lineHeld := r.lineHeld, state := if p = 0 then .opened else .closed } := by
  have hopens : (p = 0 ∧ false = false ∧ r.lineHeld = false) ↔ p = 0 := ⟨fun h => h.1, fun hp => ⟨hp, rfl, h hp⟩⟩
  exact congrArg (fun st => { PortRec.cleared with lineHeld := r.lineHeld, state := st }) (if_congr hopens rfl rfl)

/-- What part reset carries over beside the ports (R135). -/
theorem State.partReset_frame (s : State) :
    s.partReset = { State.reset with
      nreset := s.nreset, ports := s.partReset.ports, poolData := s.partReset.poolData
      poolParity := s.partReset.poolParity, freeDraws := s.partReset.freeDraws, pending := s.pending } := rfl

/-- The port after PART_RESET: P0, whose command it was, is OPEN and keeps its DONE. -/
theorem State.partReset_done_port (hn : s.nreset = false) (hline : (s.port 0).lineHeld = false) (p : Port) :
    (s.partReset.done 0).port p =
      { PortRec.cleared with
          lineHeld := (s.port p).lineHeld
          state := if p = 0 then .opened else .closed
          answer := if p = 0 then .done [] else .none } := by
  have hport := s.partReset_port p
  rw [hn, afterReset_released (by rintro rfl; exact hline)] at hport
  rw [State.done_eq, State.setPort_port, portsBut]
  split_ifs with hp
  · subst hp
    exact congrArg (answered · (.done [])) hport
  · rw [hport, if_neg hp]
    rfl

theorem State.partReset_done_frame (hn : s.nreset = false) :
    s.partReset.done 0 = { State.reset with
      ports := (s.partReset.done 0).ports, poolData := s.partReset.poolData, poolParity := s.partReset.poolParity
      freeDraws := s.partReset.freeDraws, pending := s.pending } := by
  have hframe := s.partReset_frame
  rw [hn] at hframe
  exact congrArg (State.done · 0) hframe

/-- Settles O6: both ways reach `State.partReset`, which keeps each port's line alone (`afterReset`). -/
theorem partResetRestoresEveryPart : Obligations.PartResetRestoresEveryPart := by
  refine ⟨fun s => ⟨_, rfl, fun p => ?nreset, rfl⟩, fun s hc => ?command⟩
  case nreset =>
    rw [State.partReset_port]
    exact afterReset_asserted _ _
  case command =>
    have ⟨⟨⟨hn, hline, _⟩, _⟩, _⟩ := hc
    refine ⟨_, congrArg Host.Outcome.next (State.commandWrite_of_commandable hc _ _), ?_⟩
    exact ⟨State.partReset_done_port (s := { s with engine := some ⟨8, s.cmdArg⟩ }) hn hline,
      State.partReset_done_frame (s := { s with engine := some ⟨8, s.cmdArg⟩ }) hn⟩

/-! ## The reopening of P0 (R126) -/

theorem State.reopen_eq (s : State) :
    s.reopen = s.setPort 0 { s.port 0 with
      state := if (s.port 0).state = .closed ∧ s.nreset = false ∧ (s.port 0).lineHeld = false then .opened
        else (s.port 0).state } := by
  unfold State.reopen
  split_ifs
  · rfl
  · exact (s.setPort_self 0).symm

/-! ## The sixth stage (R131, R132, R139, R150) -/

theorem exec_closeSixthStage {p : Port} {c : CloseCause} (hst : (s.port p).state = .closing c .fifth)
    (hw : (s.port p).writeBuffer = []) (hr : (s.port p).read = none) :
    exec (.closeSixthStage p) s = .next (s.shutPort p) := by
  have hstage : s.closeStage p = some .fifth := State.closeStage_eq_some.2 ⟨c, hst⟩
  have hdrained : s.drained p = true := by rw [State.drained, hw, hr]; rfl
  rw [exec, execCloseSixthStage, hstage, hdrained]
  rfl

theorem State.shutDown_frame (s : State) (p : Port) :
    s.shutDown p = { s with
      ports := (s.shutDown p).ports, engine := (s.shutDown p).engine, result := (s.shutDown p).result } := by
  unfold State.shutDown
  split_ifs
  · rw [State.complete_eq]
    rfl
  · rfl

/-- A CLOSE_PORT that waits for the port completes with OK (R132, R139). -/
theorem State.shutDown_completes {p : Port} (h : closeAwaited s p = true) :
    (s.shutDown p).engine = none ∧ (s.shutDown p).result = some ⟨2, .ok⟩ := by
  rw [State.shutDown, if_pos h, State.complete_eq]
  exact ⟨rfl, rfl⟩

theorem State.shutDown_notAwaited {p : Port} (h : closeAwaited s p = false) :
    s.shutDown p = s.setPort p (s.port p).shut := by
  rw [State.shutDown, if_neg (by rw [h]; exact Bool.false_ne_true), State.modPort_eq]

/-- A completion's notice does not reach the port that has just become CLOSED (R132, R152). -/
theorem State.shutDown_port_self (s : State) (p : Port) : (s.shutDown p).port p = (s.port p).shut := by
  unfold State.shutDown
  split_ifs
  · rw [State.complete_port, State.modPort_port_self, flagsSet_closed _ rfl]
  · rw [State.modPort_port_self]

theorem State.shutDown_port_ne (s : State) {p q : Port} (hq : q ≠ p) :
    (s.shutDown p).port q = flagsSet (s.port q) (if closeAwaited s p = true then markAt 0 0x20 q else 0) := by
  unfold State.shutDown
  split_ifs
  · rw [State.complete_port, State.modPort_port_ne _ _ hq]
  · rw [State.modPort_port_ne _ _ hq]
    exact (flagsSet_zero _).symm

theorem State.shutPort_frame (s : State) (p : Port) :
    s.shutPort p = { s with
      ports := (s.shutPort p).ports, engine := (s.shutDown p).engine, result := (s.shutDown p).result
      supView := if p = 0 then none else s.supView } := by
  have hframe := s.shutDown_frame p
  rw [State.shutPort_eq]
  split_ifs
  · rw [State.reopen_eq, hframe]
    rfl
  · exact hframe

/-- P0 opens in the event in which it becomes CLOSED, if its line and NRESET are released (R126). -/
theorem State.shutPort_port_self (s : State) (p : Port) :
    (s.shutPort p).port p =
      if p = 0 ∧ s.nreset = false ∧ (s.port p).lineHeld = false then { (s.port p).shut with state := .opened }
      else (s.port p).shut := by
  rw [State.shutPort_eq]
  by_cases hp : p = 0
  · subst hp
    have hport : State.port { s.shutDown 0 with supView := none } 0 = (s.port 0).shut := s.shutDown_port_self 0
    have hnreset : (s.shutDown 0).nreset = s.nreset := by rw [s.shutDown_frame 0]
    rw [if_pos rfl, State.reopen_eq, State.setPort_port_self, hport]
    dsimp only
    rw [hnreset]
    by_cases hopens : s.nreset = false ∧ (s.port 0).lineHeld = false
    · rw [if_pos ⟨rfl, hopens⟩, if_pos ⟨rfl, hopens⟩]
    · rw [if_neg fun h => hopens h.2, if_neg fun h => hopens h.2]
  · rw [if_neg hp, if_neg fun h => hp h.1, s.shutDown_port_self]

theorem State.shutPort_port_ne (s : State) {p q : Port} (hq : q ≠ p) : (s.shutPort p).port q = (s.shutDown p).port q := by
  rw [State.shutPort_eq]
  split_ifs with hp
  · subst hp
    rw [State.reopen_eq, State.setPort_port_ne _ _ hq]
    rfl
  · rfl

/-- Settles O53: the stage is `shutPort`; a completed CLOSE_PORT and the reopening of P0 by their own lemmas. -/
theorem sixthStageClosesPort : Obligations.SixthStageClosesPort := by
  rintro p c s r hst hw hr rfl
  have hframe := s.shutPort_frame p
  refine ⟨_, exec_closeSixthStage hst hw hr, ?frame, ?view, fun ha => ?completed, fun ha => ?notAwaited, ?self,
    fun q hq hq0 => ?others, fun hp ha => ?told, fun hp ha => ?untold⟩
  case frame => rw [hframe]
  case view => rw [hframe]
  case completed =>
    rw [hframe]
    exact State.shutDown_completes ha
  case notAwaited =>
    rw [hframe, State.shutDown_notAwaited ha]
    exact ⟨rfl, rfl⟩
  case self => exact s.shutPort_port_self p
  case others =>
    rw [s.shutPort_port_ne hq, s.shutDown_port_ne hq, markAt, if_neg hq0, ite_self]
    exact flagsSet_zero _
  case told => rw [s.shutPort_port_ne hp.symm, s.shutDown_port_ne hp.symm, if_pos ha, markAt, if_pos rfl]
  case untold =>
    rw [s.shutPort_port_ne hp.symm, State.shutDown_notAwaited ha, State.setPort_port_ne _ _ hp.symm]

/-! ## The reset lines and the release of NRESET (R123, R126, R127) -/

/-- Settles O8: the line's event by the port's state, and each release by the reopening of P0 (`reopen_eq`). -/
theorem resetLinesActOnPortState : Obligations.ResetLinesActOnPortState := by
  refine ⟨fun p s => ?asserted, fun s => ?nreset, fun p s hp => ?released, fun s => ?releasedP0⟩
  case asserted =>
    rw [exec, execPortResetLineAssert]
    refine congrArg Host.Outcome.next ?_
    cases hst : (s.port p).state with
    | closed =>
      dsimp only
      rw [State.modPort_eq, hst]
    | opened =>
      dsimp only
      rw [State.startClose, State.modPort_eq, State.modPort_eq, State.setPort_setPort, State.setPort_port_self]
    | closing c st =>
      dsimp only
      rw [State.modPort_eq, State.modPort_eq, State.setPort_setPort, State.setPort_port_self]
  case nreset =>
    have hopens : ((s.port 0).state = .closed ∧ false = false ∧ (s.port 0).lineHeld = false) ↔
        (s.port 0).state = .closed ∧ (s.port 0).lineHeld = false := and_congr_right fun _ => ⟨And.right, fun h => ⟨rfl, h⟩⟩
    exact congrArg Host.Outcome.next (if_congr hopens rfl rfl)
  case released => rw [exec, execPortResetLineRelease, if_neg hp]; rfl
  case releasedP0 =>
    rw [exec, execPortResetLineRelease, if_pos rfl, State.reopen_eq, State.modPort_eq, State.setPort_setPort,
      State.setPort_port_self]
    have hopens : ((s.port 0).state = .closed ∧ s.nreset = false ∧ false = false) ↔
        (s.port 0).state = .closed ∧ s.nreset = false := and_congr_right fun _ => ⟨And.left, fun h => ⟨h, rfl⟩⟩
    exact congrArg (fun st => Host.Outcome.next (s.setPort 0 { s.port 0 with lineHeld := false, state := st }))
      (if_congr hopens rfl rfl)

/-! ## OPEN_PORT, CLOSE_PORT and SET_POOL (R124, R125, R138 to R140, R148) -/

theorem State.cmdOpenPort_opens {arg : Word} (hq : argPort arg ≠ 0) (hclosed : (s.port (argPort arg)).state = .closed)
    (hline : (s.port (argPort arg)).lineHeld = false) :
    s.cmdOpenPort arg =
      (s.setPort (argPort arg) { s.port (argPort arg) with state := .opened }).complete Cmd.openPort .ok := by
  have hpasses : ¬((s.port (argPort arg)).state ≠ .closed ∨ (s.port (argPort arg)).lineHeld = true) := by
    simp [hclosed, hline]
  rw [State.cmdOpenPort, if_neg hq, if_neg hpasses, State.modPort_eq]

theorem State.cmdClosePort_closes {arg : Word} (hq : argPort arg ≠ 0) (hopen : (s.port (argPort arg)).state = .opened) :
    s.cmdClosePort arg =
      s.setPort (argPort arg) { s.port (argPort arg) with state := .closing .command .second } := by
  rw [State.cmdClosePort, if_neg hq, if_neg (not_not.2 hopen), State.startClose, State.modPort_eq]

theorem State.inUse_eq_false (he : ∀ e, (s.entry e).state = .free) (hk : ∀ p k, s.slot p k = .empty) : s.inUse = false := by
  rw [State.inUse, Bool.or_eq_false_iff, List.any_eq_false, List.any_eq_false]
  exact ⟨fun e _ => by rw [he]; decide, fun c _ => by rw [hk]; decide⟩

theorem State.cmdSetPool_sets {arg : Word} (hv : argValue arg ≠ 0) (hmax : argValue arg ≤ 16384) (hu : s.inUse = false) :
    s.cmdSetPool arg = State.complete { s with poolPages := argValue arg } Cmd.setPool .ok := by
  have hpasses : ¬(argValue arg = 0 ∨ 16384 < argValue arg) := not_or.2 ⟨hv, BitVec.not_lt.2 hmax⟩
  rw [State.cmdSetPool, if_neg hpasses, hu, if_neg Bool.false_ne_true]

/-- A command whose action completes is answered DONE in the same event (R138, R139). -/
theorem State.commandWrite_completes (hc : commandable s) {code : BitVec 4} {act : State → Word → State} {t : State}
    {r : CmdResult} (h : act { s with engine := some ⟨code, s.cmdArg⟩ } s.cmdArg = t.complete code r) :
    s.commandWrite 0 0 code act = completed t code r := by
  rw [State.commandWrite_of_commandable hc, h, State.complete_done]

/-- Settles O44: each command past its checks, completed with OK or left BUSY, and answered DONE. -/
theorem portAndPoolCommandsAct : Obligations.PortAndPoolCommandsAct := by
  rintro s q v hc rfl rfl
  refine ⟨fun hq hclosed hline => ?opens, fun hq hopen => ?closes, fun hv hmax he hk => ?sets⟩
  case opens =>
    exact congrArg Host.Outcome.next (State.commandWrite_completes hc
      (State.cmdOpenPort_opens (s := { s with engine := some ⟨1, s.cmdArg⟩ }) hq hclosed hline))
  case closes =>
    rw [exec, execClosePort, State.commandWrite_of_commandable hc,
      State.cmdClosePort_closes (s := { s with engine := some ⟨Cmd.closePort, s.cmdArg⟩ }) hq hopen, State.done_eq,
      State.setPort_port_ne _ _ hq.symm]
    rfl
  case sets =>
    have hu := State.inUse_eq_false (s := { s with engine := some ⟨7, s.cmdArg⟩ }) he hk
    exact congrArg Host.Outcome.next (State.commandWrite_completes hc (State.cmdSetPool_sets hv hmax hu))

end Sys2Proof.Machine
end

section
/-! OBLIGATIONS. The command engine: a BUSY one refuses every write of COMMAND, and a command that fails a check leaves its
result alone. -/

namespace Sys2Proof.Machine

variable {s : State} {arg : Word}

/-! ## A BUSY engine (R138, R149) -/

/-- A write of COMMAND at a BUSY engine is refused, whatever its code and action. -/
theorem State.commandWrite_of_busy (hp : serves s 0) (hbusy : s.engine ≠ none) (code : BitVec 4) (act : State → Word → State) :
    s.commandWrite 0 0 code act = s.setPort 0 (refusedPort (s.port 0) .commandBusy (controlPlace Reg.command.addr)) := by
  obtain ⟨c, hc⟩ := Option.ne_none_iff_exists'.1 hbusy
  rw [State.commandWrite, State.writeAt_of_row hp (.inl rfl) rowAt_command rfl, State.startCommand, hc]
  exact s.refuse_eq 0 _ _

theorem controlPlace_command : controlPlace Reg.command.addr = .control 0x1001000 := by decide

/-- Settles O42: every row of COMMAND is one write of that word, refused by the BUSY engine before any action. -/
theorem busyEngineRefusesCommands : Obligations.BusyEngineRefusesCommands := by
  rintro s t code hp hbusy rfl
  have hrefused (code : BitVec 4) (act : State → Word → State) :
      (.next (s.commandWrite 0 0 code act) : Host.Outcome State Fault Refusal) =
        .next (s.setPort 0 (refusedPort (s.port 0) .commandBusy (.control 0x1001000))) :=
    congrArg Host.Outcome.next (controlPlace_command ▸ State.commandWrite_of_busy hp hbusy code act)
  exact ⟨hrefused 1 _, hrefused 2 _, hrefused 3 _, hrefused 4 _, hrefused 5 _, hrefused 6 _, hrefused 7 _, hrefused 8 _,
    hrefused code _⟩

/-! ## The checks of the port commands (R140) -/

theorem State.cmdOpenPort_badPort (hq : argPort arg = 0) : s.cmdOpenPort arg = s.complete Cmd.openPort .badPort := if_pos hq

theorem State.cmdOpenPort_portState (hq : argPort arg ≠ 0)
    (hst : (s.port (argPort arg)).state ≠ .closed ∨ (s.port (argPort arg)).lineHeld = true) :
    s.cmdOpenPort arg = s.complete Cmd.openPort .portState := (if_neg hq).trans (if_pos hst)

theorem State.cmdClosePort_badPort (hq : argPort arg = 0) : s.cmdClosePort arg = s.complete Cmd.closePort .badPort := if_pos hq

theorem State.cmdClosePort_portState (hq : argPort arg ≠ 0) (hst : (s.port (argPort arg)).state ≠ .opened) :
    s.cmdClosePort arg = s.complete Cmd.closePort .portState := (if_neg hq).trans (if_pos hst)

/-! ## The checks of the lease commands (R9, R141, R142, R144, R146) -/

theorem State.not_current_iff {h : Handle} : (!s.current h) = true ↔ (s.entry h.entry).generation ≠ h.generation := by
  simp [State.current]

theorem State.not_stale {h : Handle} (hgen : (s.entry h.entry).generation = h.generation) : ¬(!s.current h) = true :=
  State.not_current_iff.not_left.2 hgen

section
variable (hgen : (s.entry (handleOf arg).entry).generation ≠ (handleOf arg).generation)
include hgen

theorem State.cmdRecall_staleHandle : s.cmdRecall arg = s.complete Cmd.recallLease .staleHandle :=
  if_pos (State.not_current_iff.2 hgen)

theorem State.cmdRevoke_staleHandle : s.cmdRevoke arg = s.complete Cmd.revokeLease .staleHandle :=
  if_pos (State.not_current_iff.2 hgen)

theorem State.cmdAdopt_staleHandle : s.cmdAdopt arg = s.complete Cmd.adoptLease .staleHandle :=
  if_pos (State.not_current_iff.2 hgen)

theorem State.cmdRetire_staleHandle : s.cmdRetire arg = s.complete Cmd.retireLease .staleHandle :=
  if_pos (State.not_current_iff.2 hgen)

end

section
variable (hgen : (s.entry (handleOf arg).entry).generation = (handleOf arg).generation)
include hgen

theorem State.cmdRecall_leaseState (hst : (s.entry (handleOf arg).entry).state ≠ .live) :
    s.cmdRecall arg = s.complete Cmd.recallLease .leaseState :=
  (if_neg (State.not_stale hgen)).trans (if_pos hst)

theorem State.cmdRevoke_leaseState (hst : (s.entry (handleOf arg).entry).state ≠ .live) :
    s.cmdRevoke arg = s.complete Cmd.revokeLease .leaseState :=
  (if_neg (State.not_stale hgen)).trans (if_pos hst)

theorem State.cmdRetire_leaseState (hst : (s.entry (handleOf arg).entry).state ≠ .orphaned) :
    s.cmdRetire arg = s.complete Cmd.retireLease .leaseState :=
  (if_neg (State.not_stale hgen)).trans (if_pos hst)

theorem State.cmdAdopt_leaseState
    (hst : (s.entry (handleOf arg).entry).state ≠ .orphaned ∨ (s.entry (handleOf arg).entry).inFlight ≠ 0) :
    s.cmdAdopt arg = s.complete Cmd.adoptLease .leaseState :=
  (if_neg (State.not_stale hgen)).trans (if_pos hst)

section
variable (horph : (s.entry (handleOf arg).entry).state = .orphaned) (hidle : (s.entry (handleOf arg).entry).inFlight = 0)
include horph hidle

/-- What ADOPT_LEASE does with a current handle of an orphan without bursts in flight: the port and its slots are next. -/
theorem State.cmdAdopt_of_orphan :
    s.cmdAdopt arg =
      if (s.port (argPort arg)).state ≠ .opened then s.complete Cmd.adoptLease .portState
      else
        (s.lowestEmpty (argPort arg)).elim (s.complete Cmd.adoptLease .noSlot) fun k =>
          if s.overlapsOwn (argPort arg) (s.entry (handleOf arg).entry).range then s.complete Cmd.adoptLease .overlap
          else s.adopt (handleOf arg) (argPort arg) k := by
  have horphan : ¬((s.entry (handleOf arg).entry).state ≠ .orphaned ∨ (s.entry (handleOf arg).entry).inFlight ≠ 0) := by
    simp [horph, hidle]
  unfold State.cmdAdopt
  dsimp only
  rw [if_neg (State.not_stale hgen), if_neg horphan]
  cases s.lowestEmpty (argPort arg) <;> rfl

theorem State.cmdAdopt_portState (hst : (s.port (argPort arg)).state ≠ .opened) :
    s.cmdAdopt arg = s.complete Cmd.adoptLease .portState := by
  rw [State.cmdAdopt_of_orphan hgen horph hidle, if_pos hst]

theorem State.cmdAdopt_noSlot (hopen : (s.port (argPort arg)).state = .opened)
    (hfull : ∀ k, s.slot (argPort arg) k ≠ .empty) : s.cmdAdopt arg = s.complete Cmd.adoptLease .noSlot := by
  have hnone : s.lowestEmpty (argPort arg) = none := by simp [State.lowestEmpty, hfull]
  rw [State.cmdAdopt_of_orphan hgen horph hidle, if_neg (not_not.2 hopen), hnone]
  rfl

theorem State.cmdAdopt_overlap (hopen : (s.port (argPort arg)).state = .opened)
    (hslot : ∃ k, s.slot (argPort arg) k = .empty)
    (ho : s.overlapsOwn (argPort arg) (s.entry (handleOf arg).entry).range = true) :
    s.cmdAdopt arg = s.complete Cmd.adoptLease .overlap := by
  obtain ⟨k, hk⟩ : ∃ k, s.lowestEmpty (argPort arg) = some k := by
    obtain ⟨k, hk⟩ := hslot
    exact Option.isSome_iff_exists.1 (List.find?_isSome.2 ⟨k, List.mem_finRange k, beq_iff_eq.2 hk⟩)
  rw [State.cmdAdopt_of_orphan hgen horph hidle, if_neg (not_not.2 hopen), hk, ho]
  rfl

end
end

/-! ## The checks of SET_POOL, and the codes that name no command (R138, R148) -/

theorem State.cmdSetPool_badValue (hv : argValue arg = 0 ∨ 16384 < argValue arg) :
    s.cmdSetPool arg = s.complete Cmd.setPool .badValue := if_pos hv

theorem State.inUse_of_used (h : (∃ e, (s.entry e).state ≠ .free) ∨ ∃ p k, s.slot p k ≠ .empty) : s.inUse = true := by
  rw [State.inUse, Bool.or_eq_true, List.any_eq_true, List.any_eq_true]
  rcases h with ⟨e, he⟩ | ⟨p, k, hk⟩
  · exact .inl ⟨e, List.mem_finRange e, bne_iff_ne.2 he⟩
  · exact .inr ⟨⟨p, k⟩, mem_allClaims _, bne_iff_ne.2 hk⟩

theorem State.cmdSetPool_inUse (hv : argValue arg ≠ 0) (hmax : argValue arg ≤ 16384) (hu : s.inUse = true) :
    s.cmdSetPool arg = s.complete Cmd.setPool .inUse :=
  (if_neg (not_or.2 ⟨hv, BitVec.not_lt.2 hmax⟩)).trans (if_pos hu)

/-- The codes beyond Table 48. -/
theorem ne_command_of_unknown : ∀ {code : BitVec 4}, code = 0 ∨ 8 < code →
    code ≠ Cmd.openPort ∧ code ≠ Cmd.closePort ∧ code ≠ Cmd.recallLease ∧ code ≠ Cmd.revokeLease ∧ code ≠ Cmd.adoptLease ∧
    code ≠ Cmd.retireLease ∧ code ≠ Cmd.setPool ∧ code ≠ Cmd.partReset := by decide

theorem State.runCommand_unknown {code : BitVec 4} (h : code = 0 ∨ 8 < code) :
    s.runCommand code arg = s.complete code .badValue := by
  obtain ⟨h1, h2, h3, h4, h5, h6, h7, h8⟩ := ne_command_of_unknown h
  rw [State.runCommand, if_neg h1, if_neg h2, if_neg h3, if_neg h4, if_neg h5, if_neg h6, if_neg h7, if_neg h8]
  rfl

/-! ## A command that fails (R138, R139) -/

/-- A command whose action is only its completion changes nothing but the result and P0's record: the engine is IDLE again. -/
theorem State.commandWrite_fails (hc : commandable s) {code : BitVec 4} {act : State → Word → State} {r : CmdResult}
    (h : act { s with engine := some ⟨code, s.cmdArg⟩ } s.cmdArg =
      State.complete { s with engine := some ⟨code, s.cmdArg⟩ } code r) :
    (.next (s.commandWrite 0 0 code act) : Host.Outcome State Fault Refusal) = .next (completed s code r) :=
  congrArg Host.Outcome.next (State.commandWrite_completes hc h)

/-- Settles O43: the action of each failing command is its completion with the result of the first check that fails. -/
theorem failingCommandsLeaveResult : Obligations.FailingCommandsLeaveResult := by
  rintro s q h x v code hc rfl rfl rfl rfl
  refine ⟨fun hq => ⟨?openBad, ?closeBad⟩, fun hq hst => ?openState, fun hq hst => ?closeState,
    fun hgen => ⟨?recallStale, ?revokeStale, ?adoptStale, ?retireStale⟩, fun hgen hst => ⟨?recallLease, ?revokeLease⟩,
    fun hgen hst => ?retireLease, fun hgen hst => ?adoptLease, fun hgen horph hidle =>
      ⟨fun hst => ?adoptPort, fun hopen hfull => ?adoptSlot, fun hopen hslot ho => ?adoptOverlap⟩,
    fun hv => ?poolValue, fun hv hmax hu => ?poolUse, fun hcode => ?unknown⟩
  case openBad => exact State.commandWrite_fails hc (State.cmdOpenPort_badPort hq)
  case closeBad => exact State.commandWrite_fails hc (State.cmdClosePort_badPort hq)
  case openState => exact State.commandWrite_fails hc (State.cmdOpenPort_portState hq hst)
  case closeState => exact State.commandWrite_fails hc (State.cmdClosePort_portState hq hst)
  case recallStale => exact State.commandWrite_fails hc (State.cmdRecall_staleHandle hgen)
  case revokeStale => exact State.commandWrite_fails hc (State.cmdRevoke_staleHandle hgen)
  case adoptStale => exact State.commandWrite_fails hc (State.cmdAdopt_staleHandle hgen)
  case retireStale => exact State.commandWrite_fails hc (State.cmdRetire_staleHandle hgen)
  case recallLease => exact State.commandWrite_fails hc (State.cmdRecall_leaseState hgen hst)
  case revokeLease => exact State.commandWrite_fails hc (State.cmdRevoke_leaseState hgen hst)
  case retireLease => exact State.commandWrite_fails hc (State.cmdRetire_leaseState hgen hst)
  case adoptLease => exact State.commandWrite_fails hc (State.cmdAdopt_leaseState hgen hst)
  case adoptPort => exact State.commandWrite_fails hc (State.cmdAdopt_portState hgen horph hidle hst)
  case adoptSlot => exact State.commandWrite_fails hc (State.cmdAdopt_noSlot hgen horph hidle hopen hfull)
  case adoptOverlap => exact State.commandWrite_fails hc (State.cmdAdopt_overlap hgen horph hidle hopen hslot ho)
  case poolValue => exact State.commandWrite_fails hc (State.cmdSetPool_badValue hv)
  case poolUse => exact State.commandWrite_fails hc (State.cmdSetPool_inUse hv hmax (State.inUse_of_used hu))
  case unknown => exact State.commandWrite_fails hc (State.runCommand_unknown hcode)

end Sys2Proof.Machine
end

section
/-! OBLIGATIONS. The words of the notice unit and the attention line. -/

namespace Sys2Proof.Machine

variable {s : State} {p : Port}

/-! ## A word by the port's state (R121, R161) -/

/-- A single-word read of an OPEN port at a readable word that a read does not change. -/
theorem exec_read_of_row {a : BitVec 22} {m : MapRow} (hp : serves s p) (hin : inSupervisorWindow a = false)
    (hm : rowAt a = some m) (hr : m.readable = true) (hslot : ∀ k, m.reg ≠ .slotCollect k) :
    exec (.controlWindowRead p 0 a) s = .next (s.setPort p (answered (s.port p) (.done [s.regWord p m.reg]))) := by
  have hacc : s.access p 0 a false (fun r s => s.readReg p a r) = s.readReg p a m.reg :=
    State.access_of_row hp (.inr hin) hm hr
  rw [exec, execControlWindowRead, hacc, State.readReg_eq hslot, State.doneWord_eq]

/-- A read of a port that is not OPEN is refused with PORT_CLOSED at every word but PORT_STATUS. -/
theorem exec_read_of_not_opened {a : BitVec 22} (hl : listens s p) (hp : (s.port p).state ≠ .opened)
    (ha : a ≠ Reg.portStatus.addr) (len : BitVec 4) :
    exec (.controlWindowRead p len a) s = .next (s.setPort p (answered (s.port p) (.refuse .portClosed))) :=
  congrArg Host.Outcome.next (State.access_of_not_opened hl hp ha len false _)

/-! ## NOTICE_PENDING and NOTICE_ENABLE at an OPEN port (R153, R154, R161) -/

theorem rowAt_noticePending : inSupervisorWindow Reg.noticePending.addr = false ∧
    rowAt Reg.noticePending.addr = some ⟨0x008, .noticePending, true, true⟩ := by decide

theorem rowAt_noticeEnable : inSupervisorWindow Reg.noticeEnable.addr = false ∧
    rowAt Reg.noticeEnable.addr = some ⟨0x00C, .noticeEnable, true, true⟩ := by decide

/-- A write of NOTICE_PENDING clears the named flags of the kinds the port has, and nothing else (R154). -/
theorem exec_noticePending (hp : serves s p) (w : Word) :
    exec (.noticePending p 0 w) s = .next (s.setPort p
      { s.port p with
          answer := .done []
          noticesPending := (s.port p).noticesPending &&& ~~~(w.extractLsb' 0 8 &&& noticeKinds p) }) := by
  obtain ⟨hin, hrow⟩ := rowAt_noticePending
  rw [exec, execNoticePending, State.writeAt_of_row hp (.inr hin) hrow rfl, State.acknowledge, State.modPort_done]
  rfl

theorem exec_noticePending_read (hp : serves s p) :
    exec (.controlWindowRead p 0 Reg.noticePending.addr) s = .next (s.setPort p
      (answered (s.port p) (.done [((s.port p).noticesPending &&& noticeKinds p).setWidth 32]))) := by
  obtain ⟨hin, hrow⟩ := rowAt_noticePending
  have hword : s.regWord p .noticePending = ((s.port p).noticesPending &&& noticeKinds p).setWidth 32 := place_zero _
  rw [exec_read_of_row hp hin hrow rfl (by simp), hword]

/-- A write of NOTICE_ENABLE replaces the enables of the kinds the port has, and nothing else (R153). -/
theorem exec_noticeEnable (hp : serves s p) (w : Word) :
    exec (.noticeEnable p 0 w) s = .next (s.setPort p
      { s.port p with answer := .done [], noticesEnabled := w.extractLsb' 0 8 &&& noticeKinds p }) := by
  obtain ⟨hin, hrow⟩ := rowAt_noticeEnable
  rw [exec, execNoticeEnable, State.writeAt_of_row hp (.inr hin) hrow rfl, State.setEnables, State.modPort_done]
  rfl

theorem exec_noticeEnable_read (hp : serves s p) :
    exec (.controlWindowRead p 0 Reg.noticeEnable.addr) s = .next (s.setPort p
      (answered (s.port p) (.done [((s.port p).noticesEnabled &&& noticeKinds p).setWidth 32]))) := by
  obtain ⟨hin, hrow⟩ := rowAt_noticeEnable
  have hword : s.regWord p .noticeEnable = ((s.port p).noticesEnabled &&& noticeKinds p).setWidth 32 := place_zero _
  rw [exec_read_of_row hp hin hrow rfl (by simp), hword]

/-! ## The attention line (R156) -/

/-- The line of an OPEN port follows the record that an event leaves the port with. -/
theorem State.attention_setPort_of_opened {r : PortRec} (hr : r.state = .opened) :
    (s.setPort p r).attention p = true ↔ r.noticesPending &&& r.noticesEnabled ≠ 0 := by
  rw [State.attention_iff, State.setPort_port_self]
  exact and_iff_right hr

/-! ## The obligations -/

/-- Settles O35: the write and the read by the port's state, each at its row of the map. -/
theorem acknowledgeClearsNamedFlags : Obligations.AcknowledgeClearsNamedFlags := by
  rintro p w s _ hl rfl
  refine ⟨fun hp => ⟨exec_noticePending_read ⟨hl, hp⟩, exec_noticePending ⟨hl, hp⟩ w⟩, fun hp => ⟨?closed_read, ?closed_write⟩⟩
  case closed_read => exact exec_read_of_not_opened hl hp (by decide) 0
  case closed_write => exact congrArg Host.Outcome.next (State.access_of_not_opened hl hp (by decide) 0 true _)

/-- Settles O36: the write and the read by the port's state, and the line by the record the write leaves. -/
theorem noticeEnablesReplaced : Obligations.NoticeEnablesReplaced := by
  rintro p w s _ hl rfl
  refine ⟨fun hp => ⟨⟨_, exec_noticeEnable ⟨hl, hp⟩ w, rfl, State.attention_setPort_of_opened hp⟩,
    exec_noticeEnable_read ⟨hl, hp⟩⟩, fun hp => ⟨?closed_write, ?closed_read⟩⟩
  case closed_write => exact congrArg Host.Outcome.next (State.access_of_not_opened hl hp (by decide) 0 true _)
  case closed_read => exact exec_read_of_not_opened hl hp (by decide) 0

end Sys2Proof.Machine
end

section
/-! OBLIGATIONS. The window map with its access column, and the rows that are the access of one word. -/

namespace Sys2Proof.Machine

variable {s : State}

/-! ## The rows of the map (R160, R162, R163) -/

/-- The rows of Tables 42 and 43, each found at its word's address. -/
theorem rowAt_of_mem :
    ∀ m ∈ controlMap ++ supervisorMap, rowAt m.reg.addr = some m ∧ 4 * m.reg.addr.toNat = m.reg.offset := by decide

/-- Tables 42 and 43 together name every word. -/
theorem Reg.exists_row (r : Reg) : ∃ m ∈ controlMap ++ supervisorMap, m.reg = r := by
  cases r with
  | view i | slotDescA i | slotDescB i | slotStatus i | slotCollect i | slotCancel i | sviewHoldA i | sviewHoldB i
  | defaultTerm i | termCap i =>
    revert i
    decide
  | _ => decide

/-- A word's own row, found at its address. -/
theorem Reg.rowAt_addr (r : Reg) :
    ∃ m ∈ controlMap ++ supervisorMap, m.reg = r ∧ rowAt r.addr = some m ∧ 4 * r.addr.toNat = r.offset := by
  obtain ⟨m, hm, rfl⟩ := r.exists_row
  exact ⟨m, hm, rfl, rowAt_of_mem m hm⟩

theorem Reg.addr_inj {r r' : Reg} (h : r.addr = r'.addr) : r = r' := by
  obtain ⟨m, -, rfl, hm, -⟩ := r.rowAt_addr
  obtain ⟨m', -, rfl, hm', -⟩ := r'.rowAt_addr
  rw [h, hm'] at hm
  rw [Option.some.inj hm]

/-! ## The access column (R161) -/

/-- The words that permit no read, by Tables 42 and 43. -/
abbrev WriteOnlyWord (r : Reg) : Prop := r ∈ [Reg.faultClear, Reg.command] ∨ ∃ k, r = .slotCancel k

/-- The words that permit a write, by Tables 42 and 43. -/
abbrev WritableWord (r : Reg) : Prop :=
  r ∈ [Reg.noticePending, Reg.noticeEnable, Reg.faultClear, Reg.holdQueue, Reg.viewIndex, Reg.command, Reg.cmdArg,
    Reg.supViewIndex, Reg.collectTicks, Reg.graceTicks, Reg.orphanTicks, Reg.prescaleDiv, Reg.tickDiv, Reg.tickEnable] ∨
  (∃ k, r = .slotDescA k ∨ r = .slotDescB k ∨ r = .slotCancel k) ∨ ∃ n, r = .defaultTerm n ∨ r = .termCap n

theorem map_access : ∀ m ∈ controlMap ++ supervisorMap,
    (m.readable = false ↔ WriteOnlyWord m.reg) ∧ (m.writable = true ↔ WritableWord m.reg) := by decide

/-! ## A transaction at the address of one word -/

/-- At a word's address a transaction that passes its judgments reaches that word and no other. -/
theorem State.access_addr (p : Port) (len : BitVec 4) (r : Reg) (write : Bool) (own : Reg → State → State) :
    s.access p len r.addr write own = s.access p len r.addr write fun _ => own r := by
  refine congrArg (fun f => s.transact p f) (funext fun t => ?_)
  cases hj : t.judgeAccess p len r.addr write with
  | error c => cases c <;> rfl
  | ok r' =>
    obtain ⟨-, haddr, -⟩ := State.judgeAccess_ok hj
    rw [Reg.addr_inj haddr]

theorem exec_registerWrite_addr (p : Port) (len : BitVec 4) (r : Reg) (w : Word) :
    exec (.registerWrite p len r.addr w) s = .next (s.writeAt p len r fun s => s.writeReg p r.addr w r) :=
  congrArg Host.Outcome.next (State.access_addr p len r true _)

theorem exec_controlWindowRead_addr (p : Port) (len : BitVec 4) (r : Reg) :
    exec (.controlWindowRead p len r.addr) s = .next (s.access p len r.addr false fun _ s => s.readReg p r.addr r) :=
  congrArg Host.Outcome.next (State.access_addr p len r false _)

/-! ## The commands of Table 48 (R138) -/

/-- A write of COMMAND does what Table 48 gives its code. -/
theorem exec_unknownCommand_eq {code : BitVec 4} {act : State → Word → State}
    (h : ∀ s arg, State.runCommand s code arg = act s arg) (p : Port) (len : BitVec 4) :
    exec (.unknownCommand p len code) s = .next (s.commandWrite p len code act) :=
  congrArg (fun act => Host.Outcome.next (s.commandWrite p len code act)) (funext₂ h)

/-! ## The obligation -/

/-- Settles O39: the map by its rows, each row of a word as the window access at the word's address, and each row of a command
as the write of COMMAND with its code. -/
theorem ownRowsAreWindowAccesses : Obligations.OwnRowsAreWindowAccesses := by
  refine ⟨fun r => ?place, fun a row h => (rowAt_addr h).symm, fun r row hrow => ?permits, fun p len k w s => ?own⟩
  case place =>
    obtain ⟨m, -, hreg, hm, hoff⟩ := r.rowAt_addr
    exact ⟨by rw [hm, Option.map_some, hreg], hoff⟩
  case permits =>
    obtain ⟨m, hmem, rfl, hm, -⟩ := r.rowAt_addr
    obtain rfl : row = m := Option.some.inj (hrow.symm.trans hm)
    exact map_access row hmem
  case own =>
    have written (r : Reg) := (exec_registerWrite_addr (s := s) p len r w).symm
    have collected := (exec_controlWindowRead_addr (s := s) p len (.slotCollect k)).symm
    have command {code : BitVec 4} {act : State → Word → State} (h : ∀ s arg, State.runCommand s code arg = act s arg) :=
      (exec_unknownCommand_eq (s := s) h p len).symm
    exact ⟨written (.slotDescB k), written (.slotCancel k), collected, written .holdQueue, written .viewIndex,
      written .supViewIndex, written .noticePending, written .noticeEnable, written .faultClear, written .tickEnable,
      written .command,
      command (act := State.cmdOpenPort) fun _ _ => rfl,
      command (act := State.cmdClosePort) fun _ _ => rfl,
      command (act := State.cmdRecall) fun _ _ => rfl,
      command (act := State.cmdRevoke) fun _ _ => rfl,
      command (act := State.cmdAdopt) fun _ _ => rfl,
      command (act := State.cmdRetire) fun _ _ => rfl,
      command (act := State.cmdSetPool) fun _ _ => rfl,
      command (act := fun s _ => s.cmdPartReset) fun _ _ => rfl⟩

end Sys2Proof.Machine
end

section
/-! OBLIGATIONS. The step on a queue that is not empty. -/

namespace Sys2Proof.Machine

/-- The other case of a step, beside `step_of_empty`. -/
theorem step_of_pending {s : State} {c : Instr} {rest : List Instr} (h : s.pending = c :: rest) :
    step s = exec c { s with pending := rest } := by
  rw [step, h]

/-- Settles O1, by `step_of_pending`: writing the queue twice leaves the rest that was written last. -/
theorem stepRunsFrontCommand : Obligations.StepRunsFrontCommand := fun _ _ _ => step_of_pending rfl

end Sys2Proof.Machine
end
